-- ==== Sys2Proof/Word.lean ====
section
/-! DEFINITION. The bit-vector types of the block (spec/00_scope.md R9, R10, R11): every value is unsigned, bit 7 of a byte
is its most significant bit. Offsets and lengths are naturals (R11), so they have no type here. -/

namespace Sys2Proof

/-- One frame byte. -/
abbrev Byte := BitVec 8

/-- A 16-bit field. -/
abbrev Half := BitVec 16

/-- A 32-bit field: an address, a sequence number. -/
abbrev Word := BitVec 32

end Sys2Proof
end

