-- ==== Sys2Proof/Syntax.lean ====
section
/-! DEFINITION. The operations of spec/opcode_table.json, one constructor a row, and the four header formats as records of
their fields (spec/30_encoding.md R91 to R95; the widths are spec/00_scope.md R9). -/

namespace Sys2Proof

/-- The rows of the opcode table (R4). Operands are those the table's rows name; an operation whose operands are registers
of the block (R200, R220, R133, R160, R205) takes none here. -/
inductive Instr where
  /-- PARSE: the whole per-frame command (R200, R207). -/
  | parse
  /-- FILTER: the address filter (R220). -/
  | filter
  /-- IPDEC: decode the IP header (R133 to R136). -/
  | ipdec
  /-- LOOKUP(n): name code of a protocol number (R151). -/
  | lookup (n : Byte)
  /-- DEMUX: select the transport decoder (R160). -/
  | demux
  /-- DEC_ICMP (R165). -/
  | decIcmp
  /-- DEC_UNKNOWN.IGMP, protocol 2 (R177). -/
  | decUnknownIgmp
  /-- DEC_TCP (R172, R173). -/
  | decTcp
  /-- DEC_UDP (R168). -/
  | decUdp
  /-- DEC_UNKNOWN.P41, protocol 41 (R177). -/
  | decUnknownP41
  /-- DEC_UNKNOWN.OSPF, protocol 89 (R177). -/
  | decUnknownOspf
  /-- DEC_UNKNOWN.SCTP, protocol 132 (R177). -/
  | decUnknownSctp
  /-- DEC_UNKNOWN, the default row: `proto` is the row's IP_PROTO field (R111, R177). -/
  | decUnknown (proto : Byte)
  /-- PAYCHUNK: one payload chunk, or finish (R205). -/
  | paychunk
  /-- DUMPLINE(data, n) with n the length of data (R190). -/
  | dumpline (data : List Byte)
  /-- RD8(a) (R64). -/
  | rd8 (a : Nat)
  /-- RD16(a) (R65). -/
  | rd16 (a : Nat)
  /-- RD32(a) (R66). -/
  | rd32 (a : Nat)
  /-- RDBITS(a, hi, lo) (R67). -/
  | rdbits (a hi lo : Nat)
  /-- SLICE(a, n) (R68). -/
  | slice (a n : Nat)
  deriving DecidableEq, Repr

/-- What selects a row (opcode_table.json "selector"): the value of CMD, of PHASE, or of IP_PROTO. The rows of level
"function" and "primitive" are selected by nothing. -/
inductive Selector where
  | cmd (v : BitVec 1)
  | phase (v : BitVec 3)
  | proto (v : Byte)
  deriving DecidableEq, Repr

/-- The fixed fields of format IPV4 (R91, R92). -/
structure IpHeader where
  ver : BitVec 4
  ihl : BitVec 4
  dscp : BitVec 6
  ecn : BitVec 2
  totlen : Half
  id : Half
  rsv : BitVec 1
  df : BitVec 1
  mf : BitVec 1
  fragoff : BitVec 13
  ttl : Byte
  proto : Byte
  csum : Half
  src : Word
  dst : Word
  deriving DecidableEq, Repr

/-- The fields of format ICMP (R93). -/
structure IcmpHeader where
  type : Byte
  code : Byte
  csum : Half
  rest : Word
  deriving DecidableEq, Repr

/-- The fields of format UDP (R94). -/
structure UdpHeader where
  sport : Half
  dport : Half
  len : Half
  csum : Half
  deriving DecidableEq, Repr

/-- The fields of format TCP (R95): flags are URG ACK PSH RST SYN FIN from bit 5 down to bit 0. The six bits of R96
belong to no field. -/
structure TcpHeader where
  sport : Half
  dport : Half
  seq : Word
  ack : Word
  doff : BitVec 4
  flags : BitVec 6
  win : Half
  csum : Half
  urgp : Half
  deriving DecidableEq, Repr

end Sys2Proof
end

