-- ==== Sys2Proof/Config.lean ====
section
/-! DEFINITION. The parameters of spec/00_scope.md R8, and the values the spec leaves free. A fixed parameter is a number;
an open one is an opaque constant, so that a theorem holds for every value of it. -/

namespace Sys2Proof.Config

/-- By how much LEN_W exceeds its least value 8 (R8, 92 D3: OPEN). -/
opaque lenExtra : Nat

/-- LEN_W (R8): bits of FLEN, OFF and every frame offset; at least 8. -/
def lenW : Nat := 8 + lenExtra

/-- FREE VALUE (log 1): what a frame byte holds that nothing has written (R40: "FRAME contents unspecified"). -/
opaque unwrittenByte : Nat → Byte

/-- FREE VALUE (log 16): what the n-th read of IP_PROTO by DEMUX gives where IP_PROTO holds no value (R25 gives none). -/
opaque freeProto : Nat → Byte

/-- FREE VALUE (log 16): the code of the tag that the n-th read of L4_TAG in phase L4DEC gives where L4_TAG holds no value
(R25 gives none). -/
opaque freeTag : Nat → BitVec 2

/-- NAME41 (R113, 93 U10): the display string of name code 5, an open parameter (log 8). -/
opaque name41 : String

/-- L2_SKIP (R8): bytes of link-layer header before the IP header. -/
abbrev l2Skip : Nat := 14

/-- IP_HLEN_MIN (R8). -/
abbrev ipHlenMin : Nat := 20

/-- ICMP_HLEN (R8). -/
abbrev icmpHlen : Nat := 8

/-- UDP_HLEN (R8). -/
abbrev udpHlen : Nat := 8

/-- TCP_HLEN_MIN (R8). -/
abbrev tcpHlenMin : Nat := 20

/-- CHUNK (R8): greatest number of payload bytes per chunk and per dump line. -/
abbrev chunk : Nat := 16

/-- GUTTER (R8): spaces between the hex and the ASCII column of a dump line. -/
abbrev gutter : Nat := 10

end Sys2Proof.Config
end

