-- ==== Sys2Proof/WellFormed.lean ====
section
/-! DEFINITION. Which operand values an operation admits: RDBITS, SLICE and DUMPLINE state a range (spec/20_memory.md R67,
R68, spec/43_dump_formatter.md R194), and the default row of DEC_UNKNOWN stands for the values no named row matches
(spec/30_encoding.md R111). -/

namespace Sys2Proof

/-- The seven protocol numbers that a dispatch row of its own matches (R111). -/
def namedProtocols : List Byte := [1, 2, 6, 17, 41, 89, 132]

/-- R67: 7 >= hi >= lo >= 0. -/
def bitRangeOk (hi lo : Nat) : Bool := decide (lo ≤ hi) && decide (hi ≤ 7)

/-- R68: 1 <= n <= 16. -/
def sliceLengthOk (n : Nat) : Bool := decide (1 ≤ n) && decide (n ≤ Config.chunk)

/-- R194: at most 16 bytes a line; the empty line is admitted (log 10). -/
def dumpLengthOk (data : List Byte) : Bool := decide (data.length ≤ Config.chunk)

/-- Well-formedness of an operation. -/
def Instr.wf : Instr → Bool
  | .parse => true
  | .filter => true
  | .ipdec => true
  | .lookup _ => true
  | .demux => true
  | .decIcmp => true
  | .decUnknownIgmp => true
  | .decTcp => true
  | .decUdp => true
  | .decUnknownP41 => true
  | .decUnknownOspf => true
  | .decUnknownSctp => true
  | .decUnknown p => !namedProtocols.contains p
  | .paychunk => true
  | .dumpline data => dumpLengthOk data
  | .rd8 _ => true
  | .rd16 _ => true
  | .rd32 _ => true
  | .rdbits _ hi lo => bitRangeOk hi lo
  | .slice _ n => sliceLengthOk n

/-- The rows of level "function" and "primitive": no register selects them; another operation, the display software or the
host's test bench calls them (opcode_table.json). -/
def Instr.isFunction : Instr → Bool
  | .lookup _ => true
  | .dumpline _ => true
  | .rd8 _ => true
  | .rd16 _ => true
  | .rd32 _ => true
  | .rdbits _ _ _ => true
  | .slice _ _ => true
  | .parse => false
  | .filter => false
  | .ipdec => false
  | .demux => false
  | .decIcmp => false
  | .decUnknownIgmp => false
  | .decTcp => false
  | .decUdp => false
  | .decUnknownP41 => false
  | .decUnknownOspf => false
  | .decUnknownSctp => false
  | .decUnknown _ => false
  | .paychunk => false

end Sys2Proof
end

