-- ==== Sys2Proof/Decode.lean ====
section
/-! DEFINITION. Decoding and encoding: which row a selector's value stands for (spec/30_encoding.md R110, R111,
spec/44_frame_sequencer.md R201), and the four header layouts (R91 to R96), each with the inverse written from the same
table. The bit-field and byte-order helpers stand here too (R60, R67, R100). -/

namespace Sys2Proof

/-! ### Field assembly (R100) -/

/-- R65: two bytes, the one at the lower offset more significant. -/
def be16 (v : Nat → Byte) (a : Nat) : Half := v a ++ v (a + 1)

/-- R66: four bytes, the one at the lowest offset most significant. -/
def be32 (v : Nat → Byte) (a : Nat) : Word := v a ++ v (a + 1) ++ v (a + 2) ++ v (a + 3)

/-- R67: bits hi down to lo of a byte, by shift and mask. -/
def byteBits (b : Byte) (hi lo : Nat) : BitVec (hi - lo + 1) := b.extractLsb hi lo

/-- R67: bits hi down to lo of a 16-bit word (the fragment offset and the IP flags only). -/
def halfBits (w : Half) (hi lo : Nat) : BitVec (hi - lo + 1) := w.extractLsb hi lo

/-- R101: a length in 32-bit words, times 4: two zero bits appended. -/
def wordsToBytes (n : BitVec 4) : BitVec 6 := n ++ 0#2

/-- The two bytes of a 16-bit value in wire order (R60). -/
def halfBytes (h : Half) : List Byte := [h.extractLsb 15 8, h.extractLsb 7 0]

/-- The four bytes of a 32-bit value in wire order (R60). -/
def wordBytes (w : Word) : List Byte :=
  [w.extractLsb 31 24, w.extractLsb 23 16, w.extractLsb 15 8, w.extractLsb 7 0]

/-! ### Header layouts: `v d` is the byte at displacement `d` from the header's first byte -/

/-- Format IPV4 (R91, R92, R134). -/
def decodeIpv4 (v : Nat → Byte) : IpHeader where
  ver := byteBits (v 0) 7 4
  ihl := byteBits (v 0) 3 0
  dscp := byteBits (v 1) 7 2
  ecn := byteBits (v 1) 1 0
  totlen := be16 v 2
  id := be16 v 4
  rsv := halfBits (be16 v 6) 15 15
  df := halfBits (be16 v 6) 14 14
  mf := halfBits (be16 v 6) 13 13
  fragoff := halfBits (be16 v 6) 12 0
  ttl := v 8
  proto := v 9
  csum := be16 v 10
  src := be32 v 12
  dst := be32 v 16

/-- Format ICMP (R93, R165). -/
def decodeIcmp (v : Nat → Byte) : IcmpHeader where
  type := v 0
  code := v 1
  csum := be16 v 2
  rest := be32 v 4

/-- Format UDP (R94, R168). -/
def decodeUdp (v : Nat → Byte) : UdpHeader where
  sport := be16 v 0
  dport := be16 v 2
  len := be16 v 4
  csum := be16 v 6

/-- Format TCP (R95, R96, R173): the low four bits of byte 12 and the top two of byte 13 are discarded. -/
def decodeTcp (v : Nat → Byte) : TcpHeader where
  sport := be16 v 0
  dport := be16 v 2
  seq := be32 v 4
  ack := be32 v 8
  doff := byteBits (v 12) 7 4
  flags := byteBits (v 13) 5 0
  win := be16 v 14
  csum := be16 v 16
  urgp := be16 v 18

/-- The 20 bytes of an IP header without options (R91, R92). -/
def encodeIpv4 (h : IpHeader) : List Byte :=
  [h.ver ++ h.ihl, h.dscp ++ h.ecn] ++ halfBytes h.totlen ++ halfBytes h.id ++
    halfBytes (h.rsv ++ h.df ++ h.mf ++ h.fragoff) ++ [h.ttl, h.proto] ++ halfBytes h.csum ++
    wordBytes h.src ++ wordBytes h.dst

/-- The 8 bytes of an ICMP header (R93). -/
def encodeIcmp (h : IcmpHeader) : List Byte :=
  [h.type, h.code] ++ halfBytes h.csum ++ wordBytes h.rest

/-- The 8 bytes of a UDP header (R94). -/
def encodeUdp (h : UdpHeader) : List Byte :=
  halfBytes h.sport ++ halfBytes h.dport ++ halfBytes h.len ++ halfBytes h.csum

/-- The 20 bytes of a TCP header without options; `gapA` and `gapB` are the six bits that belong to no field (R95, R96). -/
def encodeTcp (gapA : BitVec 4) (gapB : BitVec 2) (h : TcpHeader) : List Byte :=
  halfBytes h.sport ++ halfBytes h.dport ++ wordBytes h.seq ++ wordBytes h.ack ++
    [h.doff ++ gapA, gapB ++ h.flags] ++ halfBytes h.win ++ halfBytes h.csum ++ halfBytes h.urgp

/-- A list of bytes seen as displacements from its first byte; past its end nothing is asked. -/
def viewOf (bs : List Byte) (d : Nat) : Byte := bs.getD d 0

/-! ### Rows and selectors -/

/-- Why a selector's value names no row of the table. -/
inductive DecodeError where
  /-- PHASE 0 IDLE and 5 DONE: the parser has no enabled step (R201). -/
  | noStep
  /-- PHASE 3 L4DEC: the step is the decoder named by L4_TAG, selected through IP_PROTO and not by PHASE (R201, R204). -/
  | decoderByTag
  /-- PHASE 6 and 7 are never taken (R22). -/
  | phaseNeverTaken
  deriving DecidableEq, Repr

/-- R110: the command rows. -/
def decodeCommand (v : BitVec 1) : Instr := if v = 0 then .parse else .filter

/-- R201: the step rows. -/
def decodePhase (v : BitVec 3) : Except DecodeError Instr :=
  if v = 1 then .ok .ipdec
  else if v = 2 then .ok .demux
  else if v = 4 then .ok .paychunk
  else if v = 3 then .error .decoderByTag
  else if v = 0 ∨ v = 5 then .error .noStep
  else .error .phaseNeverTaken

/-- R111: the dispatch rows, seven exact matches and the default. -/
def decodeProto (v : Byte) : Instr :=
  if v = 1 then .decIcmp
  else if v = 2 then .decUnknownIgmp
  else if v = 6 then .decTcp
  else if v = 17 then .decUdp
  else if v = 41 then .decUnknownP41
  else if v = 89 then .decUnknownOspf
  else if v = 132 then .decUnknownSctp
  else .decUnknown v

/-- The row a selector's value stands for. -/
def decodeSelector : Selector → Except DecodeError Instr
  | .cmd v => .ok (decodeCommand v)
  | .phase v => decodePhase v
  | .proto v => .ok (decodeProto v)

/-- The selector value of a row; none for the rows that no register selects. -/
def encode : Instr → Option Selector
  | .parse => some (.cmd 0)
  | .filter => some (.cmd 1)
  | .ipdec => some (.phase 1)
  | .demux => some (.phase 2)
  | .paychunk => some (.phase 4)
  | .decIcmp => some (.proto 1)
  | .decUnknownIgmp => some (.proto 2)
  | .decTcp => some (.proto 6)
  | .decUdp => some (.proto 17)
  | .decUnknownP41 => some (.proto 41)
  | .decUnknownOspf => some (.proto 89)
  | .decUnknownSctp => some (.proto 132)
  | .decUnknown p => some (.proto p)
  | .lookup _ => none
  | .dumpline _ => none
  | .rd8 _ => none
  | .rd16 _ => none
  | .rd32 _ => none
  | .rdbits _ _ _ => none
  | .slice _ _ => none

/-- The table read flat (log 13): an 8-bit word does not say which selector it is a value of, so the rows are tried from the
widest mask to the narrowest, the default row (mask 0, priority 0) last. -/
def decodeFlat (w : Byte) : Instr :=
  if namedProtocols.contains w then decodeProto w
  else if w = 4 then .paychunk
  else if w = 0 then .parse
  else .decUnknown w

/-- The row read from a table word of `nbits` bits: 1 bit is a CMD value, 3 bits a PHASE value, 8 bits the table read flat;
no row has another width. A word that does not fit its width is refused. -/
def decodeTableWord (nbits w : Nat) : Option Instr :=
  if nbits = 8 then (if w < 256 then some (decodeFlat (BitVec.ofNat 8 w)) else none)
  else if nbits = 3 then (if w < 8 then (decodePhase (BitVec.ofNat 3 w)).toOption else none)
  else if nbits = 1 then (if w < 2 then some (decodeCommand (BitVec.ofNat 1 w)) else none)
  else none

end Sys2Proof
end

