-- ==== Sys2Proof/Machine/State.lean ====
section
/-! DEFINITION. The state of the block (spec/10_state.md R20 to R33), its reset value (R40), and the reasons a step can stop.
A register that can hold no value (R25) is an Option: `none` is the spec's own "holds no value". Registers of LEN_W bits are
naturals (spec/00_scope.md R11); that they stay below 2^LEN_W is an invariant. -/

namespace Sys2Proof.Machine

/-- PHASE (R22); the codes 6 and 7 are never taken. -/
inductive Phase where
  | idle | ipdec | demux | l4dec | payload | done
  deriving DecidableEq, Repr

/-- FAULT (R23, R231); the codes 5 to 7 are never produced. -/
inductive FaultCode where
  | clear | truncIp | malformedIp | truncL4 | malformedL4
  deriving DecidableEq, Repr

/-- L4_TAG (R27, R112): which variant of the transport header was selected. -/
inductive L4Tag where
  | unknown | icmp | tcp | udp
  deriving DecidableEq, Repr

/-- PNAME (R113): name code of a protocol number. -/
inductive ProtoName where
  | undefined | icmp | igmp | tcp | udp | p41 | ospf | sctp
  deriving DecidableEq, Repr

/-- The IP header registers (R26), numbers 0x20 to 0x30. -/
structure IpRegs where
  ver : Option (BitVec 4)
  ihl : Option (BitVec 4)
  dscp : Option (BitVec 6)
  ecn : Option (BitVec 2)
  totlen : Option Half
  id : Option Half
  rsv : Option (BitVec 1)
  df : Option (BitVec 1)
  mf : Option (BitVec 1)
  fragoff : Option (BitVec 13)
  ttl : Option Byte
  proto : Option Byte
  csum : Option Half
  src : Option Word
  dst : Option Word
  hlen : Option (BitVec 6)
  pname : Option ProtoName
  deriving DecidableEq, Repr

/-- The TCP registers (R28), numbers 0x42 to 0x4A. -/
structure TcpRegs where
  sport : Option Half
  dport : Option Half
  seq : Option Word
  ack : Option Word
  doff : Option (BitVec 4)
  flags : Option (BitVec 6)
  win : Option Half
  csum : Option Half
  urgp : Option Half
  deriving DecidableEq, Repr

/-- The UDP registers (R29), numbers 0x50 to 0x53. -/
structure UdpRegs where
  sport : Option Half
  dport : Option Half
  len : Option Half
  csum : Option Half
  deriving DecidableEq, Repr

/-- The ICMP registers (R30), numbers 0x58 to 0x5B. -/
structure IcmpRegs where
  type : Option Byte
  code : Option Byte
  csum : Option Half
  rest : Option Word
  deriving DecidableEq, Repr

/-- Every IP register holding no value. -/
def IpRegs.empty : IpRegs :=
  ⟨none, none, none, none, none, none, none, none, none, none, none, none, none, none, none, none, none⟩

/-- Every TCP register holding no value. -/
def TcpRegs.empty : TcpRegs := ⟨none, none, none, none, none, none, none, none, none⟩

/-- Every UDP register holding no value. -/
def UdpRegs.empty : UdpRegs := ⟨none, none, none, none⟩

/-- Every ICMP register holding no value. -/
def IcmpRegs.empty : IcmpRegs := ⟨none, none, none, none⟩

/-- One event of the chunk stream (R32): index, frame offset of the first byte, byte count, the bytes. -/
structure Chunk where
  index : Nat
  off : Nat
  len : Nat
  data : List Byte
  deriving DecidableEq, Repr

/-- FRAME (R33): the bytes the host has stored, addresses strictly rising. An unlisted address holds no stored byte, so no
entry can equal what an unlisted address reads as (log 1). -/
abbrev Memory := List Host.Cell

/-- The host's moves (R212, R263), complete. -/
inductive HostMove where
  /-- Write CMD (R21). -/
  | writeCmd (v : BitVec 1)
  /-- Write TARGET (R21). -/
  | writeTarget (v : Word)
  /-- Write FLEN (R21). -/
  | writeFlen (v : Nat)
  /-- Write START (R21, R39). -/
  | writeStart (v : BitVec 1)
  /-- Store one frame byte (R261). -/
  | writeFrame (a : Nat) (b : Byte)
  /-- Store a frame from byte 0 on (R261 (1)). -/
  | loadFrame (bytes : List Byte)
  /-- Read the register of this number (R20, R212). -/
  | read (num : Byte)
  /-- Take the next chunk of the stream (R32, R272). -/
  | take
  /-- Assert reset (R260). -/
  | reset
  deriving DecidableEq, Repr

/-- One move still to happen (log 3). -/
inductive Move where
  /-- The host moves. -/
  | host (h : HostMove)
  /-- The parser takes its enabled step, if it has one (R201). -/
  | parser
  /-- A function or primitive is called: DUMPLINE by display software (R209), the others by a test bench (log 6). -/
  | call (i : Instr)
  deriving DecidableEq, Repr

/-- What the host's last register read answered (R25). -/
inductive Reply where
  /-- Nothing has been read yet. -/
  | notRead
  /-- The register's value. -/
  | value (v : Nat)
  /-- The register holds no value, or is a result register read while the block is busy, or there is none of this number:
  an error of the reader. -/
  | error
  deriving DecidableEq, Repr

/-- What the last call of a function or primitive returned (log 6). -/
inductive Ret where
  | nothing
  /-- RD8. -/
  | byte (v : Byte)
  /-- RD16. -/
  | half (v : Half)
  /-- RD32. -/
  | word (v : Word)
  /-- RDBITS: its width hi - lo + 1 and its value. -/
  | bits (width value : Nat)
  /-- SLICE. -/
  | bytes (v : List Byte)
  /-- LOOKUP. -/
  | name (v : ProtoName)
  /-- DUMPLINE: the characters' codes. -/
  | line (v : List Byte)
  deriving DecidableEq, Repr

/-- Everything the spec gives the block (R20), then the model's own fields (INVENTORY.md, State). -/
structure State where
  /-- CMD (R21). -/
  cmd : BitVec 1
  /-- TARGET (R21). -/
  target : Word
  /-- FLEN (R21). -/
  flen : Nat
  /-- PHASE (R22). -/
  phase : Phase
  /-- FAULT (R23). -/
  fault : FaultCode
  /-- FAULT_OFF (R23). -/
  faultOff : Option Nat
  /-- IP_VALID (R23). -/
  ipValid : Bool
  /-- L4_VALID (R23). -/
  l4Valid : Bool
  /-- UNSUP (R23). -/
  unsup : Bool
  /-- MATCH_VALID (R23). -/
  matchValid : Bool
  /-- MATCH (R23). -/
  matchBit : Option Bool
  /-- OFF, the cursor (R24). -/
  off : Nat
  /-- The IP header registers (R26). -/
  ip : IpRegs
  /-- L4_TAG (R27). -/
  l4Tag : Option L4Tag
  /-- L4_HLEN (R27). -/
  l4Hlen : Option (BitVec 6)
  /-- The TCP registers (R28). -/
  tcp : TcpRegs
  /-- The UDP registers (R29). -/
  udp : UdpRegs
  /-- The ICMP registers (R30). -/
  icmp : IcmpRegs
  /-- PAY_OFF (R31). -/
  payOff : Option Nat
  /-- PAY_LEN (R31). -/
  payLen : Option Nat
  /-- CH_COUNT (R31). -/
  chCount : Nat
  /-- The chunk stream of the current command (R32). -/
  chunks : List Chunk
  /-- FRAME (R33). -/
  frame : Memory
  /-- MODEL'S OWN (log 3): the moves still to happen, oldest first. -/
  pending : List Move
  /-- MODEL'S OWN (log 4): whether the parser takes a whole command as one step (R201 allows both). -/
  fused : Bool
  /-- MODEL'S OWN (log 3): what the host's last read answered. -/
  reply : Reply
  /-- MODEL'S OWN (log 5): the chunks the consumer has taken, oldest first; never retracted (R272). -/
  taken : List Chunk
  /-- MODEL'S OWN (log 5): how many chunks of the present stream the consumer has taken. -/
  takePos : Nat
  /-- MODEL'S OWN (log 6): what the last function or primitive returned. -/
  ret : Ret
  /-- MODEL'S OWN (log 16): how many free values the parser has drawn; the next one is the opaque constant at this number. -/
  draws : Nat
  deriving DecidableEq, Repr

/-- Why the machine stops with a fault. The block's own faults are recorded in FAULT and stop nothing. -/
inductive Fault where
  /-- Raised by RD8, RD16, RD32, RDBITS and SLICE on a span [a, a+n) that is not inside the frame: the byte does not exist
  (R62). Safe: the spec permits no such read. -/
  | outOfFrame (a n : Nat)
  deriving DecidableEq, Repr

/-- Why the machine refuses. -/
inductive Refusal where
  /-- Raised by exec for an instruction that has no meaning yet. Safe. -/
  | notModelled (mnemonic : String)
  /-- Raised by RDBITS, SLICE and DUMPLINE on operands outside the range their rules state (R67, R68, R194). Safe. -/
  | operandRange
  /-- Raised by a host write of FLEN, or of a frame byte, that LEN_W bits cannot present (93 U11). Safe. -/
  | frameTooLong
  /-- Raised by a host write of the frame while the block is busy (R271, 93 U6: the host has no such move). Safe. -/
  | frameWriteWhileBusy
  /-- Raised by a queued call of an operation that a register selects: only functions and primitives are called. Safe. -/
  | notAFunction
  deriving DecidableEq, Repr

/-- The block right after reset (R40); the model's own fields as INVENTORY.md says. -/
def State.reset : State where
  cmd := 0
  target := 0
  flen := 0
  phase := .idle
  fault := .clear
  faultOff := none
  ipValid := false
  l4Valid := false
  unsup := false
  matchValid := false
  matchBit := none
  off := 0
  ip := IpRegs.empty
  l4Tag := none
  l4Hlen := none
  tcp := TcpRegs.empty
  udp := UdpRegs.empty
  icmp := IcmpRegs.empty
  payOff := none
  payLen := none
  chCount := 0
  chunks := []
  frame := []
  pending := []
  fused := false
  reply := .notRead
  taken := []
  takePos := 0
  ret := .nothing
  draws := 0

end Sys2Proof.Machine
end

