-- ==== Sys2Proof/Machine/Operands.lean ====
section
/-! DEFINITION. Reading the frame: the memory's own read, the bounds of the ByteView (spec/20_memory.md R62, R63) and its
read primitives (R64 to R68). The parser's readers are total; the bound each needs is checked by the rule that calls them
(R62), and where a primitive is called by itself its own bound is checked (Machine/ByteView.lean). -/

namespace Sys2Proof.Machine

/-- The byte stored at an address, if one is. -/
def Memory.find : Memory → Nat → Option Byte
  | [], _ => none
  | (b, v) :: m, a => if a = b then some v else Memory.find m a

/-- Canonical form: addresses strictly rising. -/
def Memory.wf : Memory → Bool
  | [] => true
  | [_] => true
  | (a, _) :: (b, w) :: m => decide (a < b) && Memory.wf ((b, w) :: m)

/-- Store one byte, keeping the addresses strictly rising. -/
def Memory.store : Memory → Nat → Byte → Memory
  | [], a, v => [(a, v)]
  | (b, w) :: m, a, v =>
    if a < b then (a, v) :: (b, w) :: m
    else if a = b then (a, v) :: m
    else (b, w) :: Memory.store m a v

/-- Store a list of bytes from an address upward. -/
def Memory.storeAll : Memory → Nat → List Byte → Memory
  | m, _, [] => m
  | m, a, v :: vs => Memory.storeAll (Memory.store m a v) (a + 1) vs

/-- What an address reads as (R33): the stored byte, or the free value of a byte nothing has written (R40, log 1). -/
def Memory.byte (m : Memory) (a : Nat) : Byte :=
  match Memory.find m a with
  | some v => v
  | none => Config.unwrittenByte a

/-- n bytes from an address upward, in order. -/
def Memory.slice (m : Memory) (a : Nat) : Nat → List Byte
  | 0 => []
  | n + 1 => Memory.byte m a :: Memory.slice m (a + 1) n

/-- FRAME[a] (R33). -/
def frameByte (s : State) (a : Nat) : Byte := Memory.byte s.frame a

/-- avail(o): frame bytes at and after offset o (R63); truncated subtraction. -/
def avail (s : State) (o : Nat) : Nat := s.flen - o

/-- The span [a, a+n) lies inside the frame (R62). -/
def inFrame (s : State) (a n : Nat) : Bool := decide (a + n ≤ s.flen)

/-- RD8 (R64). -/
def rd8 (s : State) (a : Nat) : Byte := frameByte s a

/-- RD16 (R65). -/
def rd16 (s : State) (a : Nat) : Half := be16 (frameByte s) a

/-- RD32 (R66). -/
def rd32 (s : State) (a : Nat) : Word := be32 (frameByte s) a

/-- RDBITS (R67). -/
def rdBits (s : State) (a hi lo : Nat) : BitVec (hi - lo + 1) := byteBits (frameByte s a) hi lo

/-- SLICE (R68). -/
def sliceBytes (s : State) (a n : Nat) : List Byte := Memory.slice s.frame a n

/-- The frame seen from offset p: the byte at displacement d (R69). -/
def viewAt (s : State) (p : Nat) (d : Nat) : Byte := frameByte s (p + d)

end Sys2Proof.Machine
end

