-- ==== Sys2Proof/Machine/Flags.lean ====
section
/-! DEFINITION. The codes of the status and result registers, and what decides each flag: the checks that raise a fault
(spec/40_ip_header_decoder.md R133, spec/42_transport_demux.md R165, R168, R172), the match bit (spec/45_address_filter.md
R222), the tag and the name code of a protocol number (R151, R160). -/

namespace Sys2Proof.Machine

/-- PHASE's numbers (R22). -/
def Phase.code : Phase → BitVec 3
  | .idle => 0
  | .ipdec => 1
  | .demux => 2
  | .l4dec => 3
  | .payload => 4
  | .done => 5

/-- FAULT's numbers (R231). -/
def FaultCode.code : FaultCode → BitVec 3
  | .clear => 0
  | .truncIp => 1
  | .malformedIp => 2
  | .truncL4 => 3
  | .malformedL4 => 4

/-- L4_TAG's numbers (R112). -/
def L4Tag.code : L4Tag → BitVec 2
  | .unknown => 0
  | .icmp => 1
  | .tcp => 2
  | .udp => 3

/-- The tag of a code: every two-bit value is one (R112). -/
def L4Tag.ofCode (c : BitVec 2) : L4Tag :=
  if c = 1 then .icmp
  else if c = 2 then .tcp
  else if c = 3 then .udp
  else .unknown

/-- PNAME's numbers (R113). -/
def ProtoName.code : ProtoName → BitVec 3
  | .undefined => 0
  | .icmp => 1
  | .igmp => 2
  | .tcp => 3
  | .udp => 4
  | .p41 => 5
  | .ospf => 6
  | .sctp => 7

/-- The display string of a name code (R113); that of code 5 is the open parameter NAME41. -/
def ProtoName.display : ProtoName → String
  | .undefined => "UNDEFINED"
  | .icmp => "ICMP"
  | .igmp => "IGMP"
  | .tcp => "TCP"
  | .udp => "UDP"
  | .p41 => Config.name41
  | .ospf => "OSPF"
  | .sctp => "SCTP"

/-- A one-bit flag's number. -/
def flagCode (b : Bool) : Nat := if b then 1 else 0

/-- The block is busy (R22): PHASE is 1, 2, 3 or 4. -/
def busy (s : State) : Bool :=
  match s.phase with
  | .idle => false
  | .ipdec => true
  | .demux => true
  | .l4dec => true
  | .payload => true
  | .done => false

/-- LOOKUP (R151). -/
def lookupName (n : Byte) : ProtoName :=
  if n = 1 then .icmp
  else if n = 2 then .igmp
  else if n = 6 then .tcp
  else if n = 17 then .udp
  else if n = 41 then .p41
  else if n = 89 then .ospf
  else if n = 132 then .sctp
  else .undefined

/-- The variant DEMUX selects (R160). -/
def tagOf (p : Byte) : L4Tag :=
  if p = 1 then .icmp
  else if p = 6 then .tcp
  else if p = 17 then .udp
  else .unknown

/-- The three checks of IPDEC in their order (R133); none when all pass. -/
def ipCheck (s : State) (p : Nat) : Option FaultCode :=
  if avail s p < Config.ipHlenMin then some .truncIp
  else if (rdBits s p 3 0).toNat < 5 then some .malformedIp
  else if (rdBits s p 3 0).toNat * 4 > avail s p then some .truncIp
  else none

/-- The only check of DEC_ICMP and DEC_UDP (R165, R168): a fixed header of n bytes fits. -/
def fixedCheck (s : State) (q n : Nat) : Option FaultCode :=
  if avail s q < n then some .truncL4 else none

/-- The three checks of DEC_TCP in their order (R172). -/
def tcpCheck (s : State) (q : Nat) : Option FaultCode :=
  if avail s q < Config.tcpHlenMin then some .truncL4
  else if (rdBits s (q + 12) 7 4).toNat < 5 then some .malformedL4
  else if (rdBits s (q + 12) 7 4).toNat * 4 > avail s q then some .truncL4
  else none

/-- MATCH (R220, R222): TARGET equals the source or the destination address of the header at p. -/
def matchFlag (s : State) (p : Nat) : Bool :=
  decide (s.target = rd32 s (p + 12) ∨ s.target = rd32 s (p + 16))

end Sys2Proof.Machine
end

