-- ==== Sys2Proof/Machine/Ops.lean ====
section
/-! DEFINITION. The named operations on registers that several meanings share: recording a fault (spec/60_exceptions.md R236,
R237), what comes after it (R240: the next accepted START, spec/10_state.md R39), entering the payload phase
(spec/44_frame_sequencer.md R206), reset (spec/70_reset_and_hazards.md R260), and the register groups a decoder writes. -/

namespace Sys2Proof.Machine

/-- `raise TRUNC_IP(p)` and `raise MALFORMED_IP(p)` (R236): three registers and nothing else. -/
def raiseIp (c : FaultCode) (p : Nat) (s : State) : State :=
  { s with fault := c, faultOff := some p, phase := .done }

/-- `raise TRUNC_L4(q)` and `raise MALFORMED_L4(q)` (R237): three registers and nothing else. -/
def raiseL4 (c : FaultCode) (q : Nat) (s : State) : State :=
  { s with fault := c, faultOff := some q, l4Hlen := some 0 }

/-- Entering the payload phase (R206). -/
def enterPayload (s : State) : State :=
  { s with payOff := some s.off, payLen := some (s.flen - s.off), phase := .payload }

/-- An accepted START (R39), which is also what clears a recorded fault (R240). -/
def acceptStart (s : State) : State :=
  { s with
    fault := .clear, faultOff := none, ipValid := false, l4Valid := false, unsup := false
    matchValid := false, matchBit := none
    ip := IpRegs.empty, l4Tag := none, l4Hlen := none
    tcp := TcpRegs.empty, udp := UdpRegs.empty, icmp := IcmpRegs.empty
    payOff := none, payLen := none, chCount := 0, chunks := [], takePos := 0
    off := Config.l2Skip, phase := .ipdec }

/-- Reset asserted (R260): every piece of the block's state at R40's value; the frame, which is the host's, and the model's
own records of what has left the block keep theirs. -/
def resetBlock (s : State) : State :=
  { State.reset with
    frame := s.frame, pending := s.pending, fused := s.fused, reply := s.reply, taken := s.taken, ret := s.ret
    draws := s.draws }

/-- The IP registers as a decoded header fills them (R135): its fields, the scaled length and the name code. -/
def ipRegsOf (h : IpHeader) : IpRegs where
  ver := some h.ver
  ihl := some h.ihl
  dscp := some h.dscp
  ecn := some h.ecn
  totlen := some h.totlen
  id := some h.id
  rsv := some h.rsv
  df := some h.df
  mf := some h.mf
  fragoff := some h.fragoff
  ttl := some h.ttl
  proto := some h.proto
  csum := some h.csum
  src := some h.src
  dst := some h.dst
  hlen := some (wordsToBytes h.ihl)
  pname := some (lookupName h.proto)

/-- The ICMP registers as a decoded header fills them (R165). -/
def icmpRegsOf (h : IcmpHeader) : IcmpRegs := ⟨some h.type, some h.code, some h.csum, some h.rest⟩

/-- The UDP registers as a decoded header fills them (R168). -/
def udpRegsOf (h : UdpHeader) : UdpRegs := ⟨some h.sport, some h.dport, some h.len, some h.csum⟩

/-- The TCP registers as a decoded header fills them (R173). -/
def tcpRegsOf (h : TcpHeader) : TcpRegs :=
  ⟨some h.sport, some h.dport, some h.seq, some h.ack, some h.doff, some h.flags, some h.win, some h.csum, some h.urgp⟩

/-- What a successful transport decoder writes beside its own variant (R163): it consumed n bytes. -/
def consumeL4 (n : BitVec 6) (s : State) : State :=
  { s with l4Valid := true, l4Hlen := some n, off := s.off + n.toNat }

/-- The record of the last function or primitive call (log 6). -/
def setRet (r : Ret) (s : State) : State := { s with ret := r }

/-- The parser has read a register that holds no value (R25): the free value at the number `draws` is used up (log 16). -/
def draw (s : State) : State := { s with draws := s.draws + 1 }

end Sys2Proof.Machine
end

