-- ==== Sys2Proof/Machine/ByteView.lean ====
section
/-! DEFINITION. The read primitives called by themselves (spec/20_memory.md R64 to R68): each requires its span inside the
frame before it reads (R62) and returns a value; it writes no register of the block (R71). The value stands in the model's
own field `ret` (log 6). -/

namespace Sys2Proof.Machine

/-- A primitive's answer: the value if the span [a, a+n) is inside the frame, else the read is not permitted (R62). -/
def readSpan (a n : Nat) (r : Ret) (s : State) : Host.Outcome State Fault Refusal :=
  if inFrame s a n then .next (setRet r s) else .fault (.outOfFrame a n)

/-- RD8(a) (R64). -/
def execRd8 (a : Nat) (s : State) : Host.Outcome State Fault Refusal :=
  readSpan a 1 (.byte (rd8 s a)) s

/-- RD16(a) (R65). -/
def execRd16 (a : Nat) (s : State) : Host.Outcome State Fault Refusal :=
  readSpan a 2 (.half (rd16 s a)) s

/-- RD32(a) (R66). -/
def execRd32 (a : Nat) (s : State) : Host.Outcome State Fault Refusal :=
  readSpan a 4 (.word (rd32 s a)) s

/-- RDBITS(a, hi, lo) (R67): defined for 7 >= hi >= lo >= 0. -/
def execRdbits (a hi lo : Nat) (s : State) : Host.Outcome State Fault Refusal :=
  if bitRangeOk hi lo then readSpan a 1 (.bits (hi - lo + 1) (rdBits s a hi lo).toNat) s
  else .refused .operandRange

/-- SLICE(a, n) (R68): defined for 1 <= n <= 16. -/
def execSlice (a n : Nat) (s : State) : Host.Outcome State Fault Refusal :=
  if sliceLengthOk n then readSpan a n (.bytes (sliceBytes s a n)) s
  else .refused .operandRange

end Sys2Proof.Machine
end

