-- ==== Sys2Proof/Machine/Filter.lean ====
section
/-! DEFINITION. FILTER, the address filter (spec/45_address_filter.md R220 to R224). -/

namespace Sys2Proof.Machine

/-- The single step of a FILTER (R220): the three checks of IPDEC, then the comparison; no IP register is written (R223). -/
def filterStep (s : State) : State :=
  match ipCheck s s.off with
  | some c => raiseIp c s.off s
  | none => { s with matchBit := some (matchFlag s s.off), matchValid := true, phase := .done }

/-- FILTER. -/
def execFilter (s : State) : Host.Outcome State Fault Refusal := .next (filterStep s)

end Sys2Proof.Machine
end

