-- ==== Sys2Proof/Machine/Formatter.lean ====
section
/-! DEFINITION. DUMPLINE, the hex/ASCII dump formatter (spec/43_dump_formatter.md R190 to R194): a pure function of at most
16 bytes to a line of 74 character codes. -/

namespace Sys2Proof.Machine

/-- The code of a space. -/
def space : Byte := 0x20

/-- A hex digit, lowercase (R192). -/
def hexDigit (v : BitVec 4) : Byte :=
  if v.toNat < 10 then 0x30 + v.setWidth 8 else 0x61 + v.setWidth 8 - 10

/-- One group of the hex column (R192): two digits and a space, or three spaces for an unused slot. -/
def hexGroup : Option Byte → List Byte
  | some b => [hexDigit (b.extractLsb 7 4), hexDigit (b.extractLsb 3 0), space]
  | none => [space, space, space]

/-- One slot of the ASCII column (R193): the byte if 32 <= b <= 126, else '.', or a space for an unused slot. -/
def asciiSlot : Option Byte → Byte
  | some b => if 32 ≤ b.toNat ∧ b.toNat ≤ 126 then b else 0x2e
  | none => space

/-- The hex column of k slots (R191, R192). -/
def hexColumn : Nat → List Byte → List Byte
  | 0, _ => []
  | k + 1, [] => hexGroup none ++ hexColumn k []
  | k + 1, b :: bs => hexGroup (some b) ++ hexColumn k bs

/-- The ASCII column of k slots (R191, R193). -/
def asciiColumn : Nat → List Byte → List Byte
  | 0, _ => []
  | k + 1, [] => asciiSlot none :: asciiColumn k []
  | k + 1, b :: bs => asciiSlot (some b) :: asciiColumn k bs

/-- The line (R191): hex column, gutter, ASCII column. -/
def dumpLine (data : List Byte) : List Byte :=
  hexColumn Config.chunk data ++ List.replicate Config.gutter space ++ asciiColumn Config.chunk data

/-- DUMPLINE(data, n), n the length of data (R190); more than 16 bytes are refused (R194). -/
def execDumpline (data : List Byte) (s : State) : Host.Outcome State Fault Refusal :=
  if dumpLengthOk data then .next (setRet (.line (dumpLine data)) s) else .refused .operandRange

end Sys2Proof.Machine
end

