-- ==== Sys2Proof/Machine/Registry.lean ====
section
/-! DEFINITION. LOOKUP, the protocol registry (spec/41_protocol_registry.md R150 to R154): a total constant function; it
reads and writes no register of the block. -/

namespace Sys2Proof.Machine

/-- LOOKUP(n) (R151). -/
def execLookup (n : Byte) (s : State) : Host.Outcome State Fault Refusal :=
  .next (setRet (.name (lookupName n)) s)

end Sys2Proof.Machine
end

