-- ==== Sys2Proof/Machine/IpDecoder.lean ====
section
/-! DEFINITION. IPDEC, the IP header decoder in a PARSE (spec/40_ip_header_decoder.md R130 to R139). -/

namespace Sys2Proof.Machine

/-- The IP header at p, read field by field (R134). -/
def ipHeaderAt (s : State) (p : Nat) : IpHeader := decodeIpv4 (viewAt s p)

/-- Writes on success (R135); the next phase is DEMUX (R202). -/
def ipAccept (p : Nat) (s : State) : State :=
  { s with
    ip := ipRegsOf (ipHeaderAt s p), ipValid := true
    off := p + (wordsToBytes (ipHeaderAt s p).ihl).toNat, phase := .demux }

/-- The step of phase IPDEC in a PARSE (R133 to R136, R202). -/
def ipdecStep (s : State) : State :=
  match ipCheck s s.off with
  | some c => raiseIp c s.off s
  | none => ipAccept s.off s

/-- IPDEC. -/
def execIpdec (s : State) : Host.Outcome State Fault Refusal := .next (ipdecStep s)

end Sys2Proof.Machine
end

