-- ==== Sys2Proof/Machine/Transport.lean ====
section
/-! DEFINITION. The transport demultiplexer and the transport decoders (spec/42_transport_demux.md R160 to R178), each as the
step it takes in a PARSE (spec/44_frame_sequencer.md R203, R204, R206). -/

namespace Sys2Proof.Machine

/-- What DEC_UNKNOWN writes (R177): the event, zero bytes consumed; nothing is read and nothing faults. -/
def noteUnsupported (s : State) : State := { s with unsup := true, l4Hlen := some 0 }

/-- DEC_UNKNOWN, then the payload phase (R177, R203, R206). -/
def unknownStep (s : State) : State := enterPayload (noteUnsupported s)

/-- DEMUX on the protocol number p (R160): it writes L4_TAG; the tag UNKNOWN runs DEC_UNKNOWN in the same step, the others
leave their decoder to the next (R203). -/
def demuxStep (p : Byte) (s : State) : State :=
  if tagOf p = .unknown then unknownStep { s with l4Tag := some .unknown }
  else { s with l4Tag := some (tagOf p), phase := .l4dec }

/-- DEC_ICMP (R165): its check, then its registers. -/
def icmpDecode (s : State) : State :=
  match fixedCheck s s.off Config.icmpHlen with
  | some c => raiseL4 c s.off s
  | none => consumeL4 8 { s with icmp := icmpRegsOf (decodeIcmp (viewAt s s.off)) }

/-- DEC_UDP (R168): its check, then its registers. -/
def udpDecode (s : State) : State :=
  match fixedCheck s s.off Config.udpHlen with
  | some c => raiseL4 c s.off s
  | none => consumeL4 8 { s with udp := udpRegsOf (decodeUdp (viewAt s s.off)) }

/-- The TCP header at q, read field by field (R173). -/
def tcpHeaderAt (s : State) (q : Nat) : TcpHeader := decodeTcp (viewAt s q)

/-- DEC_TCP (R172, R173): its checks, then its registers. -/
def tcpDecode (s : State) : State :=
  match tcpCheck s s.off with
  | some c => raiseL4 c s.off s
  | none => consumeL4 (wordsToBytes (tcpHeaderAt s s.off).doff) { s with tcp := tcpRegsOf (tcpHeaderAt s s.off) }

/-- DEMUX (R160, R203): the operand is IP_PROTO, and DEMUX cannot fault. Where the register holds no value, which no run from
reset meets, the number read is a free value (R25 gives none; log 16). -/
def execDemux (s : State) : Host.Outcome State Fault Refusal :=
  match s.ip.proto with
  | some p => .next (demuxStep p s)
  | none => .next (demuxStep (Config.freeProto s.draws) (draw s))

/-- DEC_ICMP, with or without a fault, then the payload phase (R204). -/
def execDecIcmp (s : State) : Host.Outcome State Fault Refusal := .next (enterPayload (icmpDecode s))

/-- DEC_UDP, with or without a fault, then the payload phase (R204). -/
def execDecUdp (s : State) : Host.Outcome State Fault Refusal := .next (enterPayload (udpDecode s))

/-- DEC_TCP, with or without a fault, then the payload phase (R204). -/
def execDecTcp (s : State) : Host.Outcome State Fault Refusal := .next (enterPayload (tcpDecode s))

/-- DEC_UNKNOWN.IGMP: protocol 2 (R177). -/
def execDecUnknownIgmp (s : State) : Host.Outcome State Fault Refusal := .next (unknownStep s)

/-- DEC_UNKNOWN.P41: protocol 41 (R177). -/
def execDecUnknownP41 (s : State) : Host.Outcome State Fault Refusal := .next (unknownStep s)

/-- DEC_UNKNOWN.OSPF: protocol 89 (R177). -/
def execDecUnknownOspf (s : State) : Host.Outcome State Fault Refusal := .next (unknownStep s)

/-- DEC_UNKNOWN.SCTP: protocol 132 (R177). -/
def execDecUnknownSctp (s : State) : Host.Outcome State Fault Refusal := .next (unknownStep s)

/-- DEC_UNKNOWN, the default row: its effect does not depend on the protocol number (R177). -/
def execDecUnknown (_ : Byte) (s : State) : Host.Outcome State Fault Refusal := .next (unknownStep s)

end Sys2Proof.Machine
end

