-- ==== Sys2Proof/Machine/Sequencer.lean ====
section
/-! DEFINITION. The frame sequencer: PAYCHUNK and the whole PARSE (spec/44_frame_sequencer.md R200 to R207). -/

namespace Sys2Proof.Machine

/-- The size of the next chunk (R205): at most 16 bytes, at most what is left. -/
def chunkSize (s : State) : Nat := min Config.chunk (s.flen - s.off)

/-- The next chunk (R32, R205). -/
def nextChunk (s : State) : Chunk := ⟨s.chCount, s.off, chunkSize s, sliceBytes s s.off (chunkSize s)⟩

/-- Emit one chunk (R205). -/
def emitChunk (s : State) : State :=
  { s with chunks := s.chunks ++ [nextChunk s], chCount := s.chCount + 1, off := s.off + chunkSize s }

/-- The step of phase PAYLOAD (R205). The rule's test is OFF = FLEN; a cursor past FLEN, which R206 excludes, finishes too
(log 12). -/
def payStep (s : State) : State :=
  if s.flen ≤ s.off then { s with phase := .done } else emitChunk s

/-- PAYCHUNK. -/
def execPaychunk (s : State) : Host.Outcome State Fault Refusal := .next (payStep s)

/-- Payload steps until DONE, at most k of them (R201: the phase repeats while OFF < FLEN). -/
def payLoop : Nat → State → State
  | 0, s => s
  | k + 1, s => if s.phase = .done then s else payLoop k (payStep s)

/-- The payload phase to its end: every step but the last advances OFF, so FLEN - OFF + 1 steps are enough. -/
def payAll (s : State) : State := payLoop (s.flen - s.off + 1) s

/-- The decoder a tag names (R204; UNKNOWN is R177). -/
def decoderStep (t : L4Tag) (s : State) : State :=
  match t with
  | .icmp => enterPayload (icmpDecode s)
  | .tcp => enterPayload (tcpDecode s)
  | .udp => enterPayload (udpDecode s)
  | .unknown => unknownStep s

/-- From the IP header's end to the payload phase: DEMUX, and the decoder it selects (R203, R204). -/
def transportSteps (p : Byte) (s : State) : State :=
  if tagOf p = .unknown then demuxStep p s else decoderStep (tagOf p) (demuxStep p s)

/-- A whole PARSE as one function, from the state an accepted START leaves (R201, R207): IPDEC; on an IP fault nothing else
(R202); else DEMUX, the transport decoder, and the payload to its end. -/
def parseRun (s : State) : State :=
  match ipCheck s s.off with
  | some c => raiseIp c s.off s
  | none => payAll (transportSteps (ipHeaderAt s s.off).proto (ipAccept s.off s))

/-- PARSE. -/
def execParse (s : State) : Host.Outcome State Fault Refusal := .next (parseRun s)

end Sys2Proof.Machine
end

