-- ==== Sys2Proof/Machine/Dispatch.lean ====
section
/-! DEFINITION. One arm per row of the opcode table. -/

namespace Sys2Proof.Machine

def exec (i : Instr) (s : State) : Host.Outcome State Fault Refusal :=
  match i with
  | .parse => Sys2Proof.Machine.execParse s
  | .filter => Sys2Proof.Machine.execFilter s
  | .ipdec => Sys2Proof.Machine.execIpdec s
  | .lookup n => Sys2Proof.Machine.execLookup n s
  | .demux => Sys2Proof.Machine.execDemux s
  | .decIcmp => Sys2Proof.Machine.execDecIcmp s
  | .decUnknownIgmp => Sys2Proof.Machine.execDecUnknownIgmp s
  | .decTcp => Sys2Proof.Machine.execDecTcp s
  | .decUdp => Sys2Proof.Machine.execDecUdp s
  | .decUnknownP41 => Sys2Proof.Machine.execDecUnknownP41 s
  | .decUnknownOspf => Sys2Proof.Machine.execDecUnknownOspf s
  | .decUnknownSctp => Sys2Proof.Machine.execDecUnknownSctp s
  | .decUnknown proto => Sys2Proof.Machine.execDecUnknown proto s
  | .paychunk => Sys2Proof.Machine.execPaychunk s
  | .dumpline data => Sys2Proof.Machine.execDumpline data s
  | .rd8 a => Sys2Proof.Machine.execRd8 a s
  | .rd16 a => Sys2Proof.Machine.execRd16 a s
  | .rd32 a => Sys2Proof.Machine.execRd32 a s
  | .rdbits a hi lo => Sys2Proof.Machine.execRdbits a hi lo s
  | .slice a n => Sys2Proof.Machine.execSlice a n s

end Sys2Proof.Machine
end

