-- ==== Sys2Proof/Machine/Fetch.lean ====
section
/-! DEFINITION. Which operation the parser performs next (spec/44_frame_sequencer.md R201): PHASE selects the step, CMD the
command, and in phase L4DEC L4_TAG the decoder. -/

namespace Sys2Proof.Machine

/-- What the sequencer finds when it is to move. -/
inductive Fetched where
  /-- IDLE or DONE: the parser has no enabled step (R201). -/
  | nothing
  /-- A selector value of the table. -/
  | row (v : Selector)
  /-- A selector value that rests on a free value, since the register read holds none (R25, log 16). -/
  | drawn (v : Selector)
  deriving DecidableEq, Repr

/-- The row of DEC_UNKNOWN that IP_PROTO selects. Where IP_PROTO selects another decoder or holds no value it is the default
row: by R177 all five rows have one effect, in which the protocol number plays no part (log 14). -/
def unknownRow (r : IpRegs) : Selector :=
  match r.proto with
  | some p => if tagOf p = .unknown then .proto p else .proto 0
  | none => .proto 0

/-- The decoder that a tag names, as the IP_PROTO value that selects it (R111, R201, R204). R203 runs DEC_UNKNOWN inside DEMUX,
so the tag UNKNOWN is not met here in a run; it names DEC_UNKNOWN all the same (R177, log 14). -/
def tagSelector (t : L4Tag) (r : IpRegs) : Selector :=
  match t with
  | .icmp => .proto 1
  | .tcp => .proto 6
  | .udp => .proto 17
  | .unknown => unknownRow r

/-- What phase L4DEC performs: the decoder named by L4_TAG (R201). Where L4_TAG holds no value, which no run from reset meets,
the tag read is a free value (log 16). -/
def fetchDecoder (s : State) : Fetched :=
  match s.l4Tag with
  | some t => .row (tagSelector t s.ip)
  | none => .drawn (tagSelector (L4Tag.ofCode (Config.freeTag s.draws)) s.ip)

/-- The selector in force (R201). With CMD = 1 the step of phase IPDEC is FILTER; with CMD = 0 it is IPDEC, or the whole PARSE
where steps are fused (log 4). -/
def fetch (s : State) : Fetched :=
  match s.phase with
  | .idle => .nothing
  | .ipdec => if s.cmd = 1 ∨ s.fused = true then .row (.cmd s.cmd) else .row (.phase 1)
  | .demux => .row (.phase 2)
  | .l4dec => fetchDecoder s
  | .payload => .row (.phase 4)
  | .done => .nothing

/-- IP_PROTO, or p where it holds no value. -/
def protoOr (p : Byte) (s : State) : IpRegs := { s.ip with proto := some (s.ip.proto.getD p) }

/-- The state in which the next step performs the operation i (log 15): for a command or IPDEC an accepted START with its
CMD, for the other steps its PHASE, for a decoder the phase L4DEC with the tag and protocol number that select it, for a
function a call of it. -/
def place (i : Instr) (s : State) : State :=
  match i with
  | .parse => acceptStart { s with pending := [], cmd := 0, fused := true }
  | .filter => acceptStart { s with pending := [], cmd := 1 }
  | .ipdec => acceptStart { s with pending := [], cmd := 0, fused := false }
  | .demux => { s with pending := [], phase := .demux, ip := protoOr 0 s }
  | .paychunk => { s with pending := [], phase := .payload }
  | .decIcmp => { s with pending := [], phase := .l4dec, l4Tag := some .icmp }
  | .decTcp => { s with pending := [], phase := .l4dec, l4Tag := some .tcp }
  | .decUdp => { s with pending := [], phase := .l4dec, l4Tag := some .udp }
  | .decUnknownIgmp =>
    { s with pending := [], phase := .l4dec, l4Tag := some .unknown, ip := { s.ip with proto := some 2 } }
  | .decUnknownP41 =>
    { s with pending := [], phase := .l4dec, l4Tag := some .unknown, ip := { s.ip with proto := some 41 } }
  | .decUnknownOspf =>
    { s with pending := [], phase := .l4dec, l4Tag := some .unknown, ip := { s.ip with proto := some 89 } }
  | .decUnknownSctp =>
    { s with pending := [], phase := .l4dec, l4Tag := some .unknown, ip := { s.ip with proto := some 132 } }
  | .decUnknown p =>
    { s with pending := [], phase := .l4dec, l4Tag := some .unknown, ip := { s.ip with proto := some p } }
  | .lookup n => { s with pending := [.call (.lookup n)] }
  | .dumpline data => { s with pending := [.call (.dumpline data)] }
  | .rd8 a => { s with pending := [.call (.rd8 a)] }
  | .rd16 a => { s with pending := [.call (.rd16 a)] }
  | .rd32 a => { s with pending := [.call (.rd32 a)] }
  | .rdbits a hi lo => { s with pending := [.call (.rdbits a hi lo)] }
  | .slice a n => { s with pending := [.call (.slice a n)] }

/-- The state in which the next step performs the row a table word stands for. -/
def placeWord (s : State) (nbits w : Nat) : State :=
  match decodeTableWord nbits w with
  | some i => place i s
  | none => s

end Sys2Proof.Machine
end

