-- ==== Sys2Proof/Machine/HostPort.lean ====
section
/-! DEFINITION. The host's side (spec/44_frame_sequencer.md R212, spec/70_reset_and_hazards.md R260 to R263, R270 to R272):
register writes and reads, loading the frame, taking chunks, reset; and the two composite operations (spec/30_encoding.md
R120). -/

namespace Sys2Proof.Machine

/-- A register read's answer from a register that may hold no value (R25). -/
def replyOf (v : Option Nat) : Reply :=
  match v with
  | some n => .value n
  | none => .error

/-- A register read's answer from a register of w bits that may hold no value. -/
def replyBits {w : Nat} (v : Option (BitVec w)) : Reply := replyOf (v.map BitVec.toNat)

/-- The control, sequencer and status registers and the cursor, by number (R21 to R24): readable at any time (R263). -/
def readControl (s : State) (num : Byte) : Reply :=
  match num.toNat with
  | 0x00 => .value s.cmd.toNat
  | 0x01 => .value s.target.toNat
  | 0x02 => .value s.flen
  | 0x03 => .value 0
  | 0x08 => .value s.phase.code.toNat
  | 0x09 => .value s.fault.code.toNat
  | 0x0A => replyOf s.faultOff
  | 0x0B => .value (flagCode s.ipValid)
  | 0x0C => .value (flagCode s.l4Valid)
  | 0x0D => .value (flagCode s.unsup)
  | 0x0E => .value (flagCode s.matchValid)
  | 0x0F => replyOf (s.matchBit.map flagCode)
  | 0x10 => .value s.off
  | _ => .error

/-- The result registers, by number (R26 to R31). -/
def readResult (s : State) (num : Byte) : Reply :=
  match num.toNat with
  | 0x20 => replyBits s.ip.ver
  | 0x21 => replyBits s.ip.ihl
  | 0x22 => replyBits s.ip.dscp
  | 0x23 => replyBits s.ip.ecn
  | 0x24 => replyBits s.ip.totlen
  | 0x25 => replyBits s.ip.id
  | 0x26 => replyBits s.ip.rsv
  | 0x27 => replyBits s.ip.df
  | 0x28 => replyBits s.ip.mf
  | 0x29 => replyBits s.ip.fragoff
  | 0x2A => replyBits s.ip.ttl
  | 0x2B => replyBits s.ip.proto
  | 0x2C => replyBits s.ip.csum
  | 0x2D => replyBits s.ip.src
  | 0x2E => replyBits s.ip.dst
  | 0x2F => replyBits s.ip.hlen
  | 0x30 => replyBits (s.ip.pname.map ProtoName.code)
  | 0x40 => replyBits (s.l4Tag.map L4Tag.code)
  | 0x41 => replyBits s.l4Hlen
  | 0x42 => replyBits s.tcp.sport
  | 0x43 => replyBits s.tcp.dport
  | 0x44 => replyBits s.tcp.seq
  | 0x45 => replyBits s.tcp.ack
  | 0x46 => replyBits s.tcp.doff
  | 0x47 => replyBits s.tcp.flags
  | 0x48 => replyBits s.tcp.win
  | 0x49 => replyBits s.tcp.csum
  | 0x4A => replyBits s.tcp.urgp
  | 0x50 => replyBits s.udp.sport
  | 0x51 => replyBits s.udp.dport
  | 0x52 => replyBits s.udp.len
  | 0x53 => replyBits s.udp.csum
  | 0x58 => replyBits s.icmp.type
  | 0x59 => replyBits s.icmp.code
  | 0x5A => replyBits s.icmp.csum
  | 0x5B => replyBits s.icmp.rest
  | 0x60 => replyOf s.payOff
  | 0x61 => replyOf s.payLen
  | 0x62 => .value s.chCount
  | _ => .error

/-- A host read (R25, R272, log 11): a result register has no reliable value while the block is busy. -/
def readReg (s : State) (num : Byte) : Reply :=
  if num.toNat < 0x20 then readControl s num
  else if busy s then .error
  else readResult s num

/-- A host write to CMD (R21); ignored while busy (R270). -/
def writeCmd (v : BitVec 1) (s : State) : State := if busy s then s else { s with cmd := v }

/-- A host write to TARGET (R21); ignored while busy (R270). -/
def writeTarget (v : Word) (s : State) : State := if busy s then s else { s with target := v }

/-- A host write to FLEN (R21); ignored while busy (R270). -/
def writeFlen (v : Nat) (s : State) : State := if busy s then s else { s with flen := v }

/-- A host write to START (R21): 1 starts a command (R39), 0 does nothing; ignored while busy (R270). -/
def writeStart (v : BitVec 1) (s : State) : State :=
  if busy s then s else if v = 1 then acceptStart s else s

/-- The consumer takes the next chunk of the stream, if there is one it has not taken (R32, R272). -/
def takeChunk (s : State) : State :=
  match s.chunks[s.takePos]? with
  | some c => { s with taken := s.taken ++ [c], takePos := s.takePos + 1 }
  | none => s

/-- The host stores bytes of the frame from address a on (R261, R263): not while busy (R271), and only where LEN_W bits can
address a byte of a frame (U11). -/
def storeFrame (a : Nat) (bytes : List Byte) (s : State) : Host.Outcome State Fault Refusal :=
  if busy s then .refused .frameWriteWhileBusy
  else if a + bytes.length < 2 ^ Config.lenW then .next { s with frame := Memory.storeAll s.frame a bytes }
  else .refused .frameTooLong

/-- One host move (R212). -/
def hostMove (h : HostMove) (s : State) : Host.Outcome State Fault Refusal :=
  match h with
  | .writeCmd v => .next (writeCmd v s)
  | .writeTarget v => .next (writeTarget v s)
  | .writeFlen v => if v < 2 ^ Config.lenW then .next (writeFlen v s) else .refused .frameTooLong
  | .writeStart v => .next (writeStart v s)
  | .writeFrame a b => storeFrame a [b] s
  | .loadFrame bytes => storeFrame 0 bytes s
  | .read num => .next { s with reply := readReg s num }
  | .take => .next (takeChunk s)
  | .reset => .next (resetBlock s)

/-- START(cmd, flen, target) of R120: the host loads the frame and writes FLEN, TARGET, CMD, then 1 to START. -/
def startMoves (cmd : BitVec 1) (bytes : List Byte) (target : Word) : List Move :=
  [.host (.loadFrame bytes), .host (.writeFlen bytes.length), .host (.writeTarget target), .host (.writeCmd cmd),
    .host (.writeStart 1)]

/-- What display software shows of the payload (R209 (3)): one dump line a chunk, in order. -/
def dumpLines (s : State) : List (List Byte) := s.chunks.map fun c => dumpLine c.data

/-- shouldSkip's answer (R120, R220): MATCH of a completed FILTER; none where the filter faulted (R224). -/
def shouldSkip (s : State) : Option Bool := if s.matchValid then s.matchBit else none

end Sys2Proof.Machine
end

