-- ==== Sys2Proof/Machine/Step.lean ====
section
/-! DEFINITION. One step of the machine: the move at the head of the queue, or the parser's step where the queue is empty
(spec/00_scope.md R14, spec/44_frame_sequencer.md R201). -/

namespace Sys2Proof.Machine

/-- The operation that a selector value stands for; where it stands for none nothing changes, and no value the parser fetches
is such a one (fetch_row_decodes). -/
def runSelected (v : Selector) (s : State) : Host.Outcome State Fault Refusal :=
  match decodeSelector v with
  | .ok i => exec i s
  | .error _ => .next s

/-- The parser's move (R201): the operation it fetches, a free value used to fetch it being used up (log 16); in IDLE and DONE
it has none and nothing changes (R40). -/
def parserMove (s : State) : Host.Outcome State Fault Refusal :=
  match fetch s with
  | .nothing => .next s
  | .row v => runSelected v s
  | .drawn v => runSelected v (draw s)

/-- A queued call: functions and primitives only. -/
def callMove (i : Instr) (s : State) : Host.Outcome State Fault Refusal :=
  if i.isFunction then exec i s else .refused .notAFunction

/-- One step. -/
def step (s : State) : Host.Outcome State Fault Refusal :=
  match s.pending with
  | [] => parserMove s
  | .parser :: rest => parserMove { s with pending := rest }
  | .host h :: rest => hostMove h { s with pending := rest }
  | .call i :: rest => callMove i { s with pending := rest }

/-- The state whose next step performs the row that the table word w of nbits bits stands for. -/
def State.withFetchWord (s : State) (nbits w : Nat) : State := placeWord s nbits w

end Sys2Proof.Machine
end

