-- ==== Sys2Proof/Safety.lean ====
section
/-! DEFINITION. The terms the claims are made in: the invariant of the machine, what it means that frames read alike, the
register map by number (spec/10_state.md R21 to R31), the numeric closed form of a PARSE (spec/44_frame_sequencer.md R207), and the step bound (spec/70_reset_and_hazards.md R277). -/

namespace Sys2Proof.Machine

/-- Two states read every frame byte alike. -/
def SameBytes (s t : State) : Prop := ∀ a, frameByte t a = frameByte s a

/-- The IP registers hold a decoded header with a legal length (R26). -/
def IpHeld (r : IpRegs) : Prop := ∃ h : IpHeader, r = ipRegsOf h ∧ 5 ≤ h.ihl.toNat

/-- The TCP registers hold a decoded header with a legal length (R28). -/
def TcpHeld (r : TcpRegs) : Prop := ∃ h : TcpHeader, r = tcpRegsOf h ∧ 5 ≤ h.doff.toNat

/-- The UDP registers hold a decoded header (R29). -/
def UdpHeld (r : UdpRegs) : Prop := ∃ h : UdpHeader, r = udpRegsOf h

/-- The ICMP registers hold a decoded header (R30). -/
def IcmpHeld (r : IcmpRegs) : Prop := ∃ h : IcmpHeader, r = icmpRegsOf h

/-- The bytes of a list of chunks, in order (R208 (a)). -/
def chunkBytes (cs : List Chunk) : List Byte := (cs.map Chunk.data).flatten

/-- No transport result yet and no fault: what holds before the transport decoder has run. -/
structure Fresh (s : State) : Prop where
  fault : s.fault = .clear
  l4Valid : s.l4Valid = false
  unsup : s.unsup = false
  chunks : s.chunks = []
  payOff : s.payOff = none
  payLen : s.payLen = none

/-- What holds in each phase. -/
def PhaseInv (s : State) : Prop :=
  match s.phase with
  | .idle => True
  | .ipdec => Fresh s ∧ s.off = Config.l2Skip ∧ s.ipValid = false ∧ s.l4Tag = none ∧ s.l4Hlen = none
  | .demux => Fresh s ∧ s.off ≤ s.flen ∧ s.ipValid = true ∧ s.l4Tag = none ∧ s.l4Hlen = none
  | .l4dec => Fresh s ∧ s.off ≤ s.flen ∧ s.ipValid = true ∧ s.l4Hlen = none ∧
      ∃ p, s.ip.proto = some p ∧ s.l4Tag = some (tagOf p) ∧ tagOf p ≠ .unknown
  | .payload => s.off ≤ s.flen ∧ s.ipValid = true ∧ s.l4Tag.isSome = true ∧ s.l4Hlen.isSome = true ∧
      ∃ po pl, s.payOff = some po ∧ s.payLen = some pl ∧ po + pl = s.flen ∧ po ≤ s.off ∧
        chunkBytes s.chunks = sliceBytes s po (s.off - po)
  | .done => True

/-- The invariant of the machine (R22 to R31, R208): every step keeps it. -/
structure Inv (s : State) : Prop where
  frameWf : Memory.wf s.frame = true
  flenFits : s.flen < 2 ^ Config.lenW
  offFits : s.off < 2 ^ Config.lenW
  countLeOff : s.chCount ≤ s.off
  countIsLength : s.chCount = s.chunks.length
  takeBound : s.takePos ≤ s.chunks.length
  faultOff : s.faultOff = none ↔ s.fault = .clear
  matchBit : s.matchBit = none ↔ s.matchValid = false
  unsupExcludes : s.unsup = true → s.fault = .clear ∧ s.l4Valid = false
  l4Excludes : s.l4Valid = true → s.fault = .clear ∧ s.l4Tag ≠ none ∧ s.l4Tag ≠ some .unknown
  ipHeld : if s.ipValid = true then IpHeld s.ip else s.ip = IpRegs.empty
  tcpHeld : if s.l4Valid = true ∧ s.l4Tag = some .tcp then TcpHeld s.tcp else s.tcp = TcpRegs.empty
  udpHeld : if s.l4Valid = true ∧ s.l4Tag = some .udp then UdpHeld s.udp else s.udp = UdpRegs.empty
  icmpHeld : if s.l4Valid = true ∧ s.l4Tag = some .icmp then IcmpHeld s.icmp else s.icmp = IcmpRegs.empty
  phaseInv : PhaseInv s

/-- The control, sequencer and status registers and the cursor by number (R21 to R24), each with what it holds; START reads as
0 (R21). -/
def controlMap (s : State) : List (Byte × Option Nat) :=
  [(0x00, some s.cmd.toNat), (0x01, some s.target.toNat), (0x02, some s.flen), (0x03, some 0)] ++
  [(0x08, some s.phase.code.toNat), (0x09, some s.fault.code.toNat), (0x0A, s.faultOff),
    (0x0B, some s.ipValid.toNat), (0x0C, some s.l4Valid.toNat), (0x0D, some s.unsup.toNat),
    (0x0E, some s.matchValid.toNat), (0x0F, s.matchBit.map Bool.toNat), (0x10, some s.off)]

/-- The IP header registers by number (R26). -/
def ipMap (r : IpRegs) : List (Byte × Option Nat) :=
  [(0x20, r.ver.map BitVec.toNat), (0x21, r.ihl.map BitVec.toNat), (0x22, r.dscp.map BitVec.toNat),
    (0x23, r.ecn.map BitVec.toNat), (0x24, r.totlen.map BitVec.toNat), (0x25, r.id.map BitVec.toNat),
    (0x26, r.rsv.map BitVec.toNat), (0x27, r.df.map BitVec.toNat), (0x28, r.mf.map BitVec.toNat),
    (0x29, r.fragoff.map BitVec.toNat), (0x2A, r.ttl.map BitVec.toNat), (0x2B, r.proto.map BitVec.toNat),
    (0x2C, r.csum.map BitVec.toNat), (0x2D, r.src.map BitVec.toNat), (0x2E, r.dst.map BitVec.toNat),
    (0x2F, r.hlen.map BitVec.toNat), (0x30, r.pname.map fun c => c.code.toNat)]

/-- The TCP registers by number (R28). -/
def tcpMap (r : TcpRegs) : List (Byte × Option Nat) :=
  [(0x42, r.sport.map BitVec.toNat), (0x43, r.dport.map BitVec.toNat), (0x44, r.seq.map BitVec.toNat),
    (0x45, r.ack.map BitVec.toNat), (0x46, r.doff.map BitVec.toNat), (0x47, r.flags.map BitVec.toNat),
    (0x48, r.win.map BitVec.toNat), (0x49, r.csum.map BitVec.toNat), (0x4A, r.urgp.map BitVec.toNat)]

/-- The UDP registers by number (R29). -/
def udpMap (r : UdpRegs) : List (Byte × Option Nat) :=
  [(0x50, r.sport.map BitVec.toNat), (0x51, r.dport.map BitVec.toNat), (0x52, r.len.map BitVec.toNat),
    (0x53, r.csum.map BitVec.toNat)]

/-- The ICMP registers by number (R30). -/
def icmpMap (r : IcmpRegs) : List (Byte × Option Nat) :=
  [(0x58, r.type.map BitVec.toNat), (0x59, r.code.map BitVec.toNat), (0x5A, r.csum.map BitVec.toNat),
    (0x5B, r.rest.map BitVec.toNat)]

/-- The result registers by number (R26 to R31), each with what it holds; `none` is the spec's "no value" (R25). -/
def resultMap (s : State) : List (Byte × Option Nat) :=
  ipMap s.ip ++ [(0x40, s.l4Tag.map fun t => t.code.toNat), (0x41, s.l4Hlen.map BitVec.toNat)] ++ tcpMap s.tcp ++
    udpMap s.udp ++ icmpMap s.icmp ++ [(0x60, s.payOff), (0x61, s.payLen), (0x62, some s.chCount)]

/-- The chunks of a payload of pl bytes at offset po, in closed form (R207). -/
def chunkTable (s : State) (po pl : Nat) : List Chunk :=
  (List.range ((pl + 15) / 16)).map fun k =>
    ⟨k, po + 16 * k, min 16 (pl - 16 * k), sliceBytes s (po + 16 * k) (min 16 (pl - 16 * k))⟩

/-- The payload record and the end of a PARSE (R207): the payload starts at po. -/
def closedPayload (po : Nat) (s : State) : State :=
  { s with
    payOff := some po, payLen := some (s.flen - po)
    chunks := chunkTable s po (s.flen - po), chCount := (s.flen - po + 15) / 16
    off := s.flen, phase := .done }

/-- The transport part of R207 at q: fault record, or a variant's record with its length. -/
def closedTransport (p : Byte) (q : Nat) (s : State) : State :=
  let left := s.flen - q
  let fail (c : FaultCode) (t : L4Tag) : State :=
    closedPayload q { s with l4Tag := some t, fault := c, faultOff := some q, l4Hlen := some 0 }
  if p = 1 then
    if left < 8 then fail .truncL4 .icmp
    else closedPayload (q + 8)
      { s with
        l4Tag := some .icmp, l4Valid := true, l4Hlen := some 8
        icmp := ⟨some (rd8 s q), some (rd8 s (q + 1)), some (rd16 s (q + 2)), some (rd32 s (q + 4))⟩ }
  else if p = 17 then
    if left < 8 then fail .truncL4 .udp
    else closedPayload (q + 8)
      { s with
        l4Tag := some .udp, l4Valid := true, l4Hlen := some 8
        udp := ⟨some (rd16 s q), some (rd16 s (q + 2)), some (rd16 s (q + 4)), some (rd16 s (q + 6))⟩ }
  else if p = 6 then
    let doff := rdBits s (q + 12) 7 4
    if left < 20 then fail .truncL4 .tcp
    else if doff.toNat < 5 then fail .malformedL4 .tcp
    else if 4 * doff.toNat > left then fail .truncL4 .tcp
    else closedPayload (q + 4 * doff.toNat)
      { s with
        l4Tag := some .tcp, l4Valid := true, l4Hlen := some (BitVec.ofNat 6 (4 * doff.toNat))
        tcp := ⟨some (rd16 s q), some (rd16 s (q + 2)), some (rd32 s (q + 4)), some (rd32 s (q + 8)), some doff,
          some (rdBits s (q + 13) 5 0), some (rd16 s (q + 14)), some (rd16 s (q + 16)), some (rd16 s (q + 18))⟩ }
  else closedPayload q { s with l4Tag := some .unknown, unsup := true, l4Hlen := some 0 }

/-- The IP record of R135 at offset 14, field by field from the read primitives (R134). -/
def closedIpRegs (s : State) : IpRegs where
  ver := some (rdBits s 14 7 4)
  ihl := some (rdBits s 14 3 0)
  dscp := some (rdBits s 15 7 2)
  ecn := some (rdBits s 15 1 0)
  totlen := some (rd16 s 16)
  id := some (rd16 s 18)
  rsv := some ((rd16 s 20).extractLsb 15 15)
  df := some ((rd16 s 20).extractLsb 14 14)
  mf := some ((rd16 s 20).extractLsb 13 13)
  fragoff := some ((rd16 s 20).extractLsb 12 0)
  ttl := some (rd8 s 22)
  proto := some (rd8 s 23)
  csum := some (rd16 s 24)
  src := some (rd32 s 26)
  dst := some (rd32 s 30)
  hlen := some (BitVec.ofNat 6 (4 * (rdBits s 14 3 0).toNat))
  pname := some (lookupName (rd8 s 23))

/-- The end state of a PARSE in closed form (R207), from the state an accepted START left. -/
def closedParse (s : State) : State :=
  let ihl := (rdBits s 14 3 0).toNat
  let fail (c : FaultCode) : State := { s with fault := c, faultOff := some 14, phase := .done }
  if s.flen < 34 then fail .truncIp
  else if ihl < 5 then fail .malformedIp
  else if 14 + 4 * ihl > s.flen then fail .truncIp
  else closedTransport (rd8 s 23) (14 + 4 * ihl) { s with ip := closedIpRegs s, ipValid := true }

/-- The steps a PARSE takes at most (R277). -/
def parseStepBound (flen : Nat) : Nat := 4 + (flen - 34 + 15) / 16

/-- Everything of the block's state that a command can read (R35): the host-written registers and the frame. -/
def SameInputs (s t : State) : Prop :=
  s.cmd = t.cmd ∧ s.target = t.target ∧ s.flen = t.flen ∧ s.frame = t.frame

/-- The model's own fields agree. -/
def SameModelFields (s t : State) : Prop :=
  s.pending = t.pending ∧ s.fused = t.fused ∧ s.reply = t.reply ∧ s.taken = t.taken ∧ s.ret = t.ret ∧ s.draws = t.draws

/-- An outcome's next state with another frame memory in it: what a run gives when only the stored bytes differ. -/
def withFrame (m : Memory) (o : Host.Outcome State Fault Refusal) : Host.Outcome State Fault Refusal :=
  match o with
  | .next t => .next { t with frame := m }
  | .fault r => .fault r
  | .refused r => .refused r

end Sys2Proof.Machine
end

