-- ==== Sys2Proof/Certificates/Slice0/Obligations.lean ====
section
/-! DEFINITION. The statements for the provers. Each docstring names the rules of spec/ it formalises; a clause that is the
model's own choice says so and names the log entry. -/

section

open Sys2Proof Sys2Proof.Machine

/-! ### Selection, decoding, encoding -/

/-- One step runs the decoded row (R201): when the selector in force decodes to i, the step is exec of i; a queued "the parser
steps" or a queued call is taken off the queue first (log 3, the model's own queue). Where the selector rests on a free value,
since L4_TAG holds none, that value is used up (log 16, the model's choice). -/
def Obligations.StepRunsDecodedRow : Prop :=
  (∀ s v i, s.pending = [] → fetch s = .row v → decodeSelector v = .ok i → step s = exec i s) ∧
  (∀ s v i rest, s.pending = .parser :: rest → fetch s = .row v → decodeSelector v = .ok i →
    step s = exec i { s with pending := rest }) ∧
  (∀ s i rest, s.pending = .call i :: rest → i.isFunction = true → step s = exec i { s with pending := rest }) ∧
  (∀ s v i, s.pending = [] → fetch s = .drawn v → decodeSelector v = .ok i →
    step s = exec i { s with draws := s.draws + 1 }) ∧
  (∀ s v i rest, s.pending = .parser :: rest → fetch s = .drawn v → decodeSelector v = .ok i →
    step s = exec i { s with pending := rest, draws := s.draws + 1 })

/-- What each phase selects (R201, R202, R204): with nothing queued and steps not fused, the step in each phase is exec of
the row the table names; in IDLE and DONE nothing changes. -/
def Obligations.PhaseSelectsOperation : Prop :=
  ∀ s : State, s.pending = [] →
    (s.phase = .idle ∨ s.phase = .done → step s = .next s) ∧
    (s.phase = .ipdec → s.cmd = 0 → s.fused = false → step s = exec .ipdec s) ∧
    (s.phase = .ipdec → s.cmd = 1 → step s = exec .filter s) ∧
    (s.phase = .demux → step s = exec .demux s) ∧
    (s.phase = .l4dec → s.l4Tag = some .icmp → step s = exec .decIcmp s) ∧
    (s.phase = .l4dec → s.l4Tag = some .tcp → step s = exec .decTcp s) ∧
    (s.phase = .l4dec → s.l4Tag = some .udp → step s = exec .decUdp s) ∧
    (s.phase = .payload → step s = exec .paychunk s)

/-- The state `place` gives makes the very next step perform the operation, for every well-formed operation (log 15: the
model's stand-in for a load); a call is taken off the queue. -/
def Obligations.PlacedOperationRunsNext : Prop :=
  ∀ (i : Instr) (s : State), i.wf = true →
    step (place i s) = if i.isFunction then exec i { place i s with pending := [] } else exec i (place i s)

/-- A few selector values written out from the table (R110, R111, R201). -/
def Obligations.SelectorValuesDecode : Prop :=
  decodeSelector (.cmd 0) = .ok .parse ∧ decodeSelector (.cmd 1) = .ok .filter ∧
  decodeSelector (.phase 0b001) = .ok .ipdec ∧ decodeSelector (.phase 0b100) = .ok .paychunk ∧
  decodeSelector (.phase 0b011) = .error .decoderByTag ∧ decodeSelector (.phase 0b110) = .error .phaseNeverTaken ∧
  decodeSelector (.proto 0x01) = .ok .decIcmp ∧ decodeSelector (.proto 0x06) = .ok .decTcp ∧
  decodeSelector (.proto 0x11) = .ok .decUdp ∧ decodeSelector (.proto 0x29) = .ok .decUnknownP41 ∧
  decodeSelector (.proto 0x84) = .ok .decUnknownSctp ∧ decodeSelector (.proto 0x12) = .ok (.decUnknown 0x12)

/-- Rows and selector values correspond one to one (R110, R111): decoding an encoded well-formed row gives it back, and what
decodes is well formed and encodes to the value it was read from. -/
def Obligations.RowsAndSelectorsCorrespond : Prop :=
  (∀ i v, i.wf = true → encode i = some v → decodeSelector v = .ok i) ∧
  (∀ v i, decodeSelector v = .ok i → i.wf = true ∧ encode i = some v)

/-- Format IPV4 (R91, R92): decoding an encoded header gives every field back, whatever options follow; and encoding what was
decoded from 20 bytes gives those bytes back. -/
def Obligations.Ipv4HeaderRoundTrip : Prop :=
  (∀ (h : IpHeader) (rest : List Byte), decodeIpv4 (viewOf (encodeIpv4 h ++ rest)) = h) ∧
  (∀ v : Nat → Byte, encodeIpv4 (decodeIpv4 v) = (List.range 20).map v)

/-- Formats ICMP and UDP (R93, R94), both directions. -/
def Obligations.ShortHeadersRoundTrip : Prop :=
  (∀ (h : IcmpHeader) (rest : List Byte), decodeIcmp (viewOf (encodeIcmp h ++ rest)) = h) ∧
  (∀ v : Nat → Byte, encodeIcmp (decodeIcmp v) = (List.range 8).map v) ∧
  (∀ (h : UdpHeader) (rest : List Byte), decodeUdp (viewOf (encodeUdp h ++ rest)) = h) ∧
  (∀ v : Nat → Byte, encodeUdp (decodeUdp v) = (List.range 8).map v)

/-- Format TCP (R95, R96): every field comes back whatever the six unlisted bits and the options are; and the 20 bytes come
back when the unlisted bits are put back too. -/
def Obligations.TcpHeaderRoundTrip : Prop :=
  (∀ (gapA : BitVec 4) (gapB : BitVec 2) (h : TcpHeader) (rest : List Byte),
    decodeTcp (viewOf (encodeTcp gapA gapB h ++ rest)) = h) ∧
  (∀ v : Nat → Byte, encodeTcp ((v 12).extractLsb 3 0) ((v 13).extractLsb 7 6) (decodeTcp v) = (List.range 20).map v)

/-! ### Reset, START, the host's reads and writes -/

/-- The reset values of R40. -/
def Obligations.ResetValues : Prop :=
  State.reset.phase = .idle ∧ State.reset.cmd = 0 ∧ State.reset.target = 0 ∧ State.reset.flen = 0 ∧
  readReg State.reset 0x03 = .value 0 ∧ State.reset.off = 0 ∧ State.reset.fault = .clear ∧ State.reset.faultOff = none ∧
  State.reset.ipValid = false ∧ State.reset.l4Valid = false ∧ State.reset.unsup = false ∧
  State.reset.matchValid = false ∧ State.reset.matchBit = none ∧ State.reset.ip = IpRegs.empty ∧
  State.reset.l4Tag = none ∧ State.reset.l4Hlen = none ∧ State.reset.tcp = TcpRegs.empty ∧
  State.reset.udp = UdpRegs.empty ∧ State.reset.icmp = IcmpRegs.empty ∧ State.reset.payOff = none ∧
  State.reset.payLen = none ∧ State.reset.chCount = 0 ∧ State.reset.chunks = [] ∧
  step State.reset = .next State.reset

/-- Reset asserted at any time, busy or not, puts every piece of the block's state at its reset value; the frame is not
touched and chunks already taken stay taken (R260). The model's own queue, granularity, reply, returned value and count of free
values keep theirs (log 3, log 16). -/
def Obligations.ResetAtAnyTime : Prop :=
  ∀ s rest, s.pending = .host .reset :: rest →
    step s = .next { State.reset with
      frame := s.frame, pending := rest, fused := s.fused, reply := s.reply, taken := s.taken, ret := s.ret
      draws := s.draws }

/-- An accepted START (R39): every result cleared, the cursor at 14, the phase IPDEC; CMD, TARGET, FLEN and the frame kept,
and held for the whole command: no step while busy changes them, a reset (R260) apart. `takePos` and `pending` are the model's
own fields (log 3, log 5). -/
def Obligations.AcceptedStartClears : Prop :=
  (∀ s rest, s.pending = .host (.writeStart 1) :: rest → busy s = false →
    step s = .next { s with
      pending := rest
      fault := .clear, faultOff := none, ipValid := false, l4Valid := false, unsup := false
      matchValid := false, matchBit := none, ip := IpRegs.empty, l4Tag := none, l4Hlen := none
      tcp := TcpRegs.empty, udp := UdpRegs.empty, icmp := IcmpRegs.empty
      payOff := none, payLen := none, chCount := 0, chunks := [], takePos := 0, off := 14, phase := .ipdec }) ∧
  (∀ s t, busy s = true → (∀ rest, s.pending ≠ .host .reset :: rest) → step s = .next t → SameInputs s t)

/-- A write to CMD, TARGET, FLEN or START while busy is ignored (R270). -/
def Obligations.WritesWhileBusyIgnored : Prop :=
  ∀ s rest, busy s = true →
    (∀ v, s.pending = .host (.writeCmd v) :: rest → step s = .next { s with pending := rest }) ∧
    (∀ v, s.pending = .host (.writeTarget v) :: rest → step s = .next { s with pending := rest }) ∧
    (∀ v, s.pending = .host (.writeFlen v) :: rest → v < 2 ^ Config.lenW → step s = .next { s with pending := rest }) ∧
    (∀ v, s.pending = .host (.writeStart v) :: rest → step s = .next { s with pending := rest })

/-- A write to CMD, TARGET or FLEN in IDLE or DONE takes effect, writing 0 to START does nothing (R21), and a length that
LEN_W bits cannot present is refused (93 U11). -/
def Obligations.WritesWhenNotBusy : Prop :=
  ∀ s rest, busy s = false →
    (∀ v, s.pending = .host (.writeCmd v) :: rest → step s = .next { s with pending := rest, cmd := v }) ∧
    (∀ v, s.pending = .host (.writeTarget v) :: rest → step s = .next { s with pending := rest, target := v }) ∧
    (∀ v, s.pending = .host (.writeFlen v) :: rest → v < 2 ^ Config.lenW →
      step s = .next { s with pending := rest, flen := v }) ∧
    (∀ v, s.pending = .host (.writeFlen v) :: rest → 2 ^ Config.lenW ≤ v → step s = .refused .frameTooLong) ∧
    (s.pending = .host (.writeStart 0) :: rest → step s = .next { s with pending := rest })

/-- A read changes nothing of the block but the model's reply (log 3). Register by register: one that holds no value answers an
error, never 0 and never a value left by a previous command; so does every result register read while busy (R25, R272). That
the answer is the reply `error`, and that a number no rule assigns answers it too, is the model's form (log 11). -/
def Obligations.UnreadableRegistersAnswerErrors : Prop :=
  (∀ s num rest, s.pending = .host (.read num) :: rest →
    step s = .next { s with pending := rest, reply := readReg s num }) ∧
  (∀ s num, (num, none) ∈ controlMap s → readReg s num = .error) ∧
  (∀ s num, (num, none) ∈ resultMap s → readReg s num = .error) ∧
  (∀ s num v, busy s = true → (num, v) ∈ resultMap s → readReg s num = .error) ∧
  (∀ s num, num ∉ (controlMap s).map Prod.fst → num ∉ (resultMap s).map Prod.fst → readReg s num = .error)

/-- Every register of R21 to R31 that holds a value answers it under its own number: the control, sequencer and status registers
and the cursor at any time, busy or not (R263, log 11), the result registers in IDLE and DONE (R272). -/
def Obligations.ReadableRegistersAnswerValues : Prop :=
  (∀ s num v, (num, some v) ∈ controlMap s → readReg s num = .value v) ∧
  (∀ s num v, busy s = false → (num, some v) ∈ resultMap s → readReg s num = .value v)

/-- The host stores frame bytes in IDLE or DONE (R261, R263): a frame loaded stands at addresses 0 onward, one byte written
stands at its address, every other byte reads as before, and nothing else changes. A frame or an address that LEN_W bits
cannot present is refused by name (93 U11, log 2). -/
def Obligations.LoadedFrameReadsBack : Prop :=
  (∀ s bytes rest, s.pending = .host (.loadFrame bytes) :: rest → busy s = false → bytes.length < 2 ^ Config.lenW →
    ∃ t, step s = .next t ∧ t = { s with pending := rest, frame := t.frame } ∧
      (∀ a v, bytes[a]? = some v → frameByte t a = v) ∧
      (∀ a, bytes.length ≤ a → frameByte t a = frameByte s a)) ∧
  (∀ s a b rest, s.pending = .host (.writeFrame a b) :: rest → busy s = false → a + 1 < 2 ^ Config.lenW →
    ∃ t, step s = .next t ∧ t = { s with pending := rest, frame := t.frame } ∧ frameByte t a = b ∧
      (∀ c, c ≠ a → frameByte t c = frameByte s c)) ∧
  (∀ s bytes rest, s.pending = .host (.loadFrame bytes) :: rest → busy s = false → 2 ^ Config.lenW ≤ bytes.length →
    step s = .refused .frameTooLong) ∧
  (∀ s a b rest, s.pending = .host (.writeFrame a b) :: rest → busy s = false → 2 ^ Config.lenW ≤ a + 1 →
    step s = .refused .frameTooLong)

/-- A frame write while the block is busy is refused by name: the model's host has no such move (R271; 93 U6; log 7). -/
def Obligations.FrameWriteWhileBusyRefused : Prop :=
  ∀ s rest, busy s = true →
    (∀ a b, s.pending = .host (.writeFrame a b) :: rest → step s = .refused .frameWriteWhileBusy) ∧
    (∀ bytes, s.pending = .host (.loadFrame bytes) :: rest → step s = .refused .frameWriteWhileBusy)

/-! ### Read primitives and functions -/

/-- RD8, RD16 and RD32 return the big-endian value of their bytes (R64, R65, R66), at any alignment. -/
def Obligations.FixedWidthReadsAreBigEndian : Prop :=
  (∀ s a, a + 1 ≤ s.flen → exec (.rd8 a) s = .next { s with ret := .byte (frameByte s a) }) ∧
  (∀ s a, a + 2 ≤ s.flen → ∃ v : Half, exec (.rd16 a) s = .next { s with ret := .half v } ∧
    v.toNat = (frameByte s a).toNat * 256 + (frameByte s (a + 1)).toNat) ∧
  (∀ s a, a + 4 ≤ s.flen → ∃ v : Word, exec (.rd32 a) s = .next { s with ret := .word v } ∧
    v.toNat = (frameByte s a).toNat * 2 ^ 24 + (frameByte s (a + 1)).toNat * 2 ^ 16 +
      (frameByte s (a + 2)).toNat * 2 ^ 8 + (frameByte s (a + 3)).toNat)

/-- A wide read is its bytes side by side (R61). -/
def Obligations.MixedWidthReadsAgree : Prop :=
  (∀ s a, rd32 s a = rd8 s a ++ rd8 s (a + 1) ++ rd8 s (a + 2) ++ rd8 s (a + 3)) ∧
  (∀ s a, rd16 s a = rd8 s a ++ rd8 s (a + 1))

/-- RDBITS(a, hi, lo) shifts right by lo and masks hi - lo + 1 bits; a field of two bytes is taken from RD16 in the same way
(R67). -/
def Obligations.BitReadsShiftAndMask : Prop :=
  (∀ s a hi lo, lo ≤ hi → hi ≤ 7 → a + 1 ≤ s.flen →
    exec (.rdbits a hi lo) s =
      .next { s with ret := .bits (hi - lo + 1) ((frameByte s a).toNat / 2 ^ lo % 2 ^ (hi - lo + 1)) }) ∧
  (∀ s a hi lo, lo ≤ hi → hi ≤ 15 → a + 2 ≤ s.flen →
    (halfBits (rd16 s a) hi lo).toNat =
      ((frameByte s a).toNat * 256 + (frameByte s (a + 1)).toNat) / 2 ^ lo % 2 ^ (hi - lo + 1))

/-- SLICE(a, n) returns n bytes in order (R68). -/
def Obligations.SliceReturnsBytesInOrder : Prop :=
  ∀ s a n, 1 ≤ n → n ≤ 16 → a + n ≤ s.flen →
    ∃ bs : List Byte, exec (.slice a n) s = .next { s with ret := .bytes bs } ∧ bs.length = n ∧
      ∀ i, i < n → bs[i]? = some (frameByte s (a + i))

/-- Where a primitive called by itself stops. That the span must be inside the frame is R62's, and that DUMPLINE refuses more
than 16 bytes is R194's. THE MODEL'S OWN CHOICE (log 17): that the stop outside the frame is the fault `outOfFrame`, and that
RDBITS and SLICE refuse operands outside the range R67 and R68 define them for. -/
def Obligations.ReadsOutsideTheFrameStop : Prop :=
  (∀ s a, s.flen < a + 1 → exec (.rd8 a) s = .fault (.outOfFrame a 1)) ∧
  (∀ s a, s.flen < a + 2 → exec (.rd16 a) s = .fault (.outOfFrame a 2)) ∧
  (∀ s a, s.flen < a + 4 → exec (.rd32 a) s = .fault (.outOfFrame a 4)) ∧
  (∀ s a hi lo, lo ≤ hi → hi ≤ 7 → s.flen < a + 1 → exec (.rdbits a hi lo) s = .fault (.outOfFrame a 1)) ∧
  (∀ s a n, 1 ≤ n → n ≤ 16 → s.flen < a + n → exec (.slice a n) s = .fault (.outOfFrame a n)) ∧
  (∀ s a hi lo, hi < lo ∨ 7 < hi → exec (.rdbits a hi lo) s = .refused .operandRange) ∧
  (∀ s a n, n = 0 ∨ 16 < n → exec (.slice a n) s = .refused .operandRange) ∧
  (∀ s data, 16 < data.length → exec (.dumpline data) s = .refused .operandRange)

/-- FRAME of LOOKUP, DUMPLINE, RD8, RD16, RD32, RDBITS and SLICE: nothing of the block changes, and no byte (R71, R150, R190);
only the model's record of the returned value does. -/
def Obligations.FunctionsLeaveTheBlockUnchanged : Prop :=
  ∀ i s t, i.isFunction = true → exec i s = .next t → t = { s with ret := t.ret } ∧ SameBytes s t

/-- LOOKUP is the table of R151 on all 256 numbers, codes and display strings; that of 41 is the open parameter NAME41. -/
def Obligations.LookupIsTheRegistry : Prop :=
  ∀ (n : Byte) (s : State), ∃ r : ProtoName, exec (.lookup n) s = .next { s with ret := .name r } ∧
    r.code = (if n = 1 then 1 else if n = 2 then 2 else if n = 6 then 3 else if n = 17 then 4
      else if n = 41 then 5 else if n = 89 then 6 else if n = 132 then 7 else 0) ∧
    r.display = (if n = 1 then "ICMP" else if n = 2 then "IGMP" else if n = 6 then "TCP" else if n = 17 then "UDP"
      else if n = 41 then Config.name41 else if n = 89 then "OSPF" else if n = 132 then "SCTP" else "UNDEFINED")

/-- The registry's corner cases and its range (R154): each of the codes 1 to 7 has exactly one preimage, and 0 has 249. -/
def Obligations.LookupPreimages : Prop :=
  (∀ c : ProtoName, c ≠ .undefined →
    (((List.range 256).map fun n => lookupName (BitVec.ofNat 8 n)).filter fun r => decide (r = c)).length = 1) ∧
  (((List.range 256).map fun n => lookupName (BitVec.ofNat 8 n)).filter fun r => decide (r = .undefined)).length = 249 ∧
  (∀ n : Byte, n = 0 ∨ n = 4 ∨ n = 98 ∨ n = 255 ∨ n = 7 ∨ n = 16 ∨ n = 18 → (lookupName n).code = 0)

/-! ### IPDEC -/

/-- IPDEC when the three checks pass (R133, R134, R135, R202): the seventeen registers, the flag, the cursor, the phase. -/
def Obligations.IpdecDecodesTheHeader : Prop :=
  ∀ s : State, 20 ≤ avail s s.off → 5 ≤ (rdBits s s.off 3 0).toNat → (rdBits s s.off 3 0).toNat * 4 ≤ avail s s.off →
    exec .ipdec s = .next { s with
      ip := {
        ver := some (rdBits s s.off 7 4), ihl := some (rdBits s s.off 3 0)
        dscp := some (rdBits s (s.off + 1) 7 2), ecn := some (rdBits s (s.off + 1) 1 0)
        totlen := some (rd16 s (s.off + 2)), id := some (rd16 s (s.off + 4))
        rsv := some ((rd16 s (s.off + 6)).extractLsb 15 15), df := some ((rd16 s (s.off + 6)).extractLsb 14 14)
        mf := some ((rd16 s (s.off + 6)).extractLsb 13 13), fragoff := some ((rd16 s (s.off + 6)).extractLsb 12 0)
        ttl := some (rd8 s (s.off + 8)), proto := some (rd8 s (s.off + 9)), csum := some (rd16 s (s.off + 10))
        src := some (rd32 s (s.off + 12)), dst := some (rd32 s (s.off + 16))
        hlen := some (BitVec.ofNat 6 ((rdBits s s.off 3 0).toNat * 4)), pname := some (lookupName (rd8 s (s.off + 9))) }
      ipValid := true, off := s.off + (rdBits s s.off 3 0).toNat * 4, phase := .demux }

/-- IPDEC's and FILTER's faults (R133, R136, R236): the first failing check is the one recorded, with the cursor, and
nothing else changes but PHASE. -/
def Obligations.IpFaultsAreRecorded : Prop :=
  ∀ (i : Instr) (s : State), i = .ipdec ∨ i = .filter ∨ i = .parse →
    (avail s s.off < 20 →
      exec i s = .next { s with fault := .truncIp, faultOff := some s.off, phase := .done }) ∧
    (20 ≤ avail s s.off → (rdBits s s.off 3 0).toNat < 5 →
      exec i s = .next { s with fault := .malformedIp, faultOff := some s.off, phase := .done }) ∧
    (20 ≤ avail s s.off → 5 ≤ (rdBits s s.off 3 0).toNat → avail s s.off < (rdBits s s.off 3 0).toNat * 4 →
      exec i s = .next { s with fault := .truncIp, faultOff := some s.off, phase := .done })

/-- FRAME of IPDEC (R36): nothing but these registers changes, and no byte. -/
def Obligations.IpdecFrame : Prop :=
  ∀ s t, exec .ipdec s = .next t →
    t = { s with ip := t.ip, ipValid := t.ipValid, off := t.off, fault := t.fault, faultOff := t.faultOff, phase := t.phase } ∧
    SameBytes s t

/-! ### DEMUX and the transport decoders -/

/-- DEMUX (R160, R203): the tag of the protocol number; 1, 6 and 17 leave their decoder to phase L4DEC, every other value runs
DEC_UNKNOWN in the same step and enters the payload phase (R177, R206). -/
def Obligations.DemuxSelectsTheDecoder : Prop :=
  ∀ (s : State) (p : Byte), s.ip.proto = some p →
    (p = 1 → exec .demux s = .next { s with l4Tag := some .icmp, phase := .l4dec }) ∧
    (p = 6 → exec .demux s = .next { s with l4Tag := some .tcp, phase := .l4dec }) ∧
    (p = 17 → exec .demux s = .next { s with l4Tag := some .udp, phase := .l4dec }) ∧
    (p ≠ 1 → p ≠ 6 → p ≠ 17 → exec .demux s = .next { s with
      l4Tag := some .unknown, unsup := true, l4Hlen := some 0
      payOff := some s.off, payLen := some (s.flen - s.off), phase := .payload })

/-- DEMUX runs where IP_PROTO holds no value too, since R160 lets it not fault: R25 gives such a read no value, so the number is
a free one, whatever it is, and R160's four cases follow. THE MODEL'S OWN CHOICE (log 16), met in no run from reset. -/
def Obligations.DemuxWithoutProtocolRuns : Prop :=
  ∀ s : State, s.ip.proto = none → exec .demux s = .next (
    if Config.freeProto s.draws = 1 then { s with l4Tag := some .icmp, phase := .l4dec, draws := s.draws + 1 }
    else if Config.freeProto s.draws = 6 then { s with l4Tag := some .tcp, phase := .l4dec, draws := s.draws + 1 }
    else if Config.freeProto s.draws = 17 then { s with l4Tag := some .udp, phase := .l4dec, draws := s.draws + 1 }
    else { s with
      l4Tag := some .unknown, unsup := true, l4Hlen := some 0
      payOff := some s.off, payLen := some (s.flen - s.off), phase := .payload, draws := s.draws + 1 })

/-- The five DEC_UNKNOWN rows (R177), then the payload phase (R206): they read nothing and cannot fault. -/
def Obligations.UnknownProtocolIsNoted : Prop :=
  ∀ (i : Instr) (s : State),
    i = .decUnknownIgmp ∨ i = .decUnknownP41 ∨ i = .decUnknownOspf ∨ i = .decUnknownSctp ∨ (∃ p, i = .decUnknown p) →
    exec i s = .next { s with
      unsup := true, l4Hlen := some 0, payOff := some s.off, payLen := some (s.flen - s.off), phase := .payload }

/-- FRAME of DEMUX and of the five DEC_UNKNOWN rows (R36): nothing but these registers changes, and no byte; only DEMUX
writes L4_TAG. DEMUX may also use up a free value (log 16, the model's own count). -/
def Obligations.DemuxAndUnknownFrame : Prop :=
  (∀ s t, exec .demux s = .next t →
    t = { s with
      l4Tag := t.l4Tag, l4Hlen := t.l4Hlen, unsup := t.unsup, payOff := t.payOff, payLen := t.payLen, phase := t.phase
      draws := t.draws } ∧
    SameBytes s t) ∧
  (∀ i s t,
    i = .decUnknownIgmp ∨ i = .decUnknownP41 ∨ i = .decUnknownOspf ∨ i = .decUnknownSctp ∨ (∃ p, i = .decUnknown p) →
    exec i s = .next t →
    t = { s with l4Hlen := t.l4Hlen, unsup := t.unsup, payOff := t.payOff, payLen := t.payLen, phase := t.phase } ∧
    SameBytes s t)

/-- DEC_ICMP (R165), then the payload phase (R204, R206): success with 8 bytes, or the fault record of R237. -/
def Obligations.IcmpDecoderResult : Prop :=
  ∀ s : State,
    (avail s s.off < 8 → exec .decIcmp s = .next { s with
      fault := .truncL4, faultOff := some s.off, l4Hlen := some 0
      payOff := some s.off, payLen := some (s.flen - s.off), phase := .payload }) ∧
    (8 ≤ avail s s.off → exec .decIcmp s = .next { s with
      icmp := ⟨some (rd8 s s.off), some (rd8 s (s.off + 1)), some (rd16 s (s.off + 2)), some (rd32 s (s.off + 4))⟩
      l4Valid := true, l4Hlen := some 8, off := s.off + 8
      payOff := some (s.off + 8), payLen := some (s.flen - (s.off + 8)), phase := .payload })

/-- DEC_UDP (R168, R169), then the payload phase (R204, R206): the header's own length bounds nothing. -/
def Obligations.UdpDecoderResult : Prop :=
  ∀ s : State,
    (avail s s.off < 8 → exec .decUdp s = .next { s with
      fault := .truncL4, faultOff := some s.off, l4Hlen := some 0
      payOff := some s.off, payLen := some (s.flen - s.off), phase := .payload }) ∧
    (8 ≤ avail s s.off → exec .decUdp s = .next { s with
      udp := ⟨some (rd16 s s.off), some (rd16 s (s.off + 2)), some (rd16 s (s.off + 4)), some (rd16 s (s.off + 6))⟩
      l4Valid := true, l4Hlen := some 8, off := s.off + 8
      payOff := some (s.off + 8), payLen := some (s.flen - (s.off + 8)), phase := .payload })

/-- DEC_TCP when its three checks pass (R172, R173), then the payload phase (R204, R206). -/
def Obligations.TcpDecoderResult : Prop :=
  ∀ s : State, 20 ≤ avail s s.off → 5 ≤ (rdBits s (s.off + 12) 7 4).toNat →
    (rdBits s (s.off + 12) 7 4).toNat * 4 ≤ avail s s.off →
    exec .decTcp s = .next { s with
      tcp := {
        sport := some (rd16 s s.off), dport := some (rd16 s (s.off + 2)), seq := some (rd32 s (s.off + 4))
        ack := some (rd32 s (s.off + 8)), doff := some (rdBits s (s.off + 12) 7 4)
        flags := some (rdBits s (s.off + 13) 5 0), win := some (rd16 s (s.off + 14))
        csum := some (rd16 s (s.off + 16)), urgp := some (rd16 s (s.off + 18)) }
      l4Valid := true, l4Hlen := some (BitVec.ofNat 6 ((rdBits s (s.off + 12) 7 4).toNat * 4))
      off := s.off + (rdBits s (s.off + 12) 7 4).toNat * 4
      payOff := some (s.off + (rdBits s (s.off + 12) 7 4).toNat * 4)
      payLen := some (s.flen - (s.off + (rdBits s (s.off + 12) 7 4).toNat * 4)), phase := .payload }

/-- DEC_TCP's faults (R172, R237): the first failing check is recorded, no TCP register and no cursor changes, and the payload
phase starts at the undecoded header (R164, R206). -/
def Obligations.TcpFaultsAreRecorded : Prop :=
  ∀ s : State,
    (avail s s.off < 20 → exec .decTcp s = .next { s with
      fault := .truncL4, faultOff := some s.off, l4Hlen := some 0
      payOff := some s.off, payLen := some (s.flen - s.off), phase := .payload }) ∧
    (20 ≤ avail s s.off → (rdBits s (s.off + 12) 7 4).toNat < 5 → exec .decTcp s = .next { s with
      fault := .malformedL4, faultOff := some s.off, l4Hlen := some 0
      payOff := some s.off, payLen := some (s.flen - s.off), phase := .payload }) ∧
    (20 ≤ avail s s.off → 5 ≤ (rdBits s (s.off + 12) 7 4).toNat → avail s s.off < (rdBits s (s.off + 12) 7 4).toNat * 4 →
      exec .decTcp s = .next { s with
        fault := .truncL4, faultOff := some s.off, l4Hlen := some 0
        payOff := some s.off, payLen := some (s.flen - s.off), phase := .payload })

/-- FRAME of DEC_ICMP, DEC_UDP and DEC_TCP (R36, R163): each writes its own variant, the registers common to all and the fault
record, and nothing else; no byte changes. -/
def Obligations.TransportDecoderFrame : Prop :=
  (∀ s t, exec .decIcmp s = .next t →
    t = { s with
      icmp := t.icmp, l4Valid := t.l4Valid, l4Hlen := t.l4Hlen, off := t.off, fault := t.fault, faultOff := t.faultOff
      payOff := t.payOff, payLen := t.payLen, phase := t.phase } ∧ SameBytes s t) ∧
  (∀ s t, exec .decUdp s = .next t →
    t = { s with
      udp := t.udp, l4Valid := t.l4Valid, l4Hlen := t.l4Hlen, off := t.off, fault := t.fault, faultOff := t.faultOff
      payOff := t.payOff, payLen := t.payLen, phase := t.phase } ∧ SameBytes s t) ∧
  (∀ s t, exec .decTcp s = .next t →
    t = { s with
      tcp := t.tcp, l4Valid := t.l4Valid, l4Hlen := t.l4Hlen, off := t.off, fault := t.fault, faultOff := t.faultOff
      payOff := t.payOff, payLen := t.payLen, phase := t.phase } ∧ SameBytes s t)

/-! ### PAYCHUNK -/

/-- PAYCHUNK (R205): at the end of the frame it finishes; before it, one chunk of min(16, what is left) bytes. -/
def Obligations.PaychunkEmitsOneChunk : Prop :=
  ∀ s : State,
    (s.off = s.flen → exec .paychunk s = .next { s with phase := .done }) ∧
    (s.off < s.flen → exec .paychunk s = .next { s with
      chunks := s.chunks ++ [⟨s.chCount, s.off, min 16 (s.flen - s.off), sliceBytes s s.off (min 16 (s.flen - s.off))⟩]
      chCount := s.chCount + 1, off := s.off + min 16 (s.flen - s.off) })

/-- A cursor past the frame's end, which R206 excludes, finishes too: the model's choice (log 12). -/
def Obligations.PaychunkPastTheEndFinishes : Prop :=
  ∀ s : State, s.flen < s.off → exec .paychunk s = .next { s with phase := .done }

/-- FRAME of PAYCHUNK (R36): the stream, its count, the cursor and the phase; no byte changes. -/
def Obligations.PaychunkFrame : Prop :=
  ∀ s t, exec .paychunk s = .next t →
    t = { s with chunks := t.chunks, chCount := t.chCount, off := t.off, phase := t.phase } ∧ SameBytes s t

/-! ### PARSE -/

/-- A whole PARSE from an accepted START ends in the closed form of R207. -/
def Obligations.ParseEndsInClosedForm : Prop :=
  ∀ u : State, exec .parse (acceptStart u) = .next (closedParse (acceptStart u))

/-- PARSE as one function is its steps taken one by one (R201), and they are at most 4 + ceil((FLEN - 34) / 16) (R277). -/
def Obligations.ParseIsItsSteps : Prop :=
  ∀ s : State, s.phase = .ipdec → s.cmd = 0 → s.fused = false → s.pending = [] → s.off = 14 →
    ∃ k t, k ≤ parseStepBound s.flen ∧ Host.Core.run Sys2Proof.core k s = .next t ∧ t.phase = .done ∧
      exec .parse s = .next t

/-- The invariants of a PARSE without IP fault (R208 (a) to (f)). -/
def Obligations.ParseAccountsForEveryByte : Prop :=
  ∀ u t : State, exec .parse (acceptStart u) = .next t → t.fault ≠ .truncIp → t.fault ≠ .malformedIp →
    ∃ po pl hl ll, t.payOff = some po ∧ t.payLen = some pl ∧ t.ip.hlen = some hl ∧ t.l4Hlen = some ll ∧
      14 + hl.toNat + ll.toNat + pl = u.flen ∧ po = 14 + hl.toNat + ll.toNat ∧
      chunkBytes t.chunks = sliceBytes u po pl ∧
      t.chCount = (pl + 15) / 16 ∧ t.chunks.length = t.chCount ∧ t.off = u.flen ∧ t.phase = .done ∧
      (t.unsup = true → t.fault = .clear ∧ t.l4Valid = false) ∧
      (t.l4Valid = true → t.fault = .clear ∧ t.l4Tag ≠ some .unknown)

/-- FRAME of PARSE (R36): the host-written registers, the match registers, the frame and the model's own fields are as
before. -/
def Obligations.ParseFrame : Prop :=
  ∀ s t, exec .parse s = .next t →
    t.cmd = s.cmd ∧ t.target = s.target ∧ t.flen = s.flen ∧ t.frame = s.frame ∧ SameBytes s t ∧
    t.matchValid = s.matchValid ∧ t.matchBit = s.matchBit ∧ SameModelFields s t ∧ t.takePos = s.takePos

/-! ### FILTER -/

/-- FILTER when the three checks pass (R220, R222, R223): MATCH is 1 iff TARGET is the source or the destination address. -/
def Obligations.FilterAnswersMatch : Prop :=
  ∀ s : State, 20 ≤ avail s s.off → 5 ≤ (rdBits s s.off 3 0).toNat → (rdBits s s.off 3 0).toNat * 4 ≤ avail s s.off →
    ∃ b : Bool, exec .filter s = .next { s with matchBit := some b, matchValid := true, phase := .done } ∧
      (b = true ↔ s.target = rd32 s (s.off + 12) ∨ s.target = rd32 s (s.off + 16))

/-- FRAME of FILTER (R36, R223): no IP register, no cursor, no chunk; no byte. -/
def Obligations.FilterFrame : Prop :=
  ∀ s t, exec .filter s = .next t →
    t = { s with matchBit := t.matchBit, matchValid := t.matchValid, fault := t.fault, faultOff := t.faultOff, phase := t.phase } ∧
    SameBytes s t

/-! ### DUMPLINE -/

/-- DUMPLINE on 1 to 16 bytes (R191, R192, R193): 74 characters; every character by its column. -/
def Obligations.DumplineLayout : Prop :=
  ∀ (s : State) (data : List Byte), 1 ≤ data.length → data.length ≤ 16 →
    ∃ text : List Byte, exec (.dumpline data) s = .next { s with ret := .line text } ∧ text.length = 74 ∧
      (∀ i b, data[i]? = some b →
        (∃ c, text[3 * i]? = some c ∧
          c.toNat = (if b.toNat / 16 < 10 then 0x30 + b.toNat / 16 else 0x61 + b.toNat / 16 - 10)) ∧
        (∃ c, text[3 * i + 1]? = some c ∧
          c.toNat = (if b.toNat % 16 < 10 then 0x30 + b.toNat % 16 else 0x61 + b.toNat % 16 - 10)) ∧
        text[3 * i + 2]? = some 0x20 ∧
        text[58 + i]? = some (if 32 ≤ b.toNat ∧ b.toNat ≤ 126 then b else 0x2e)) ∧
      (∀ i, data.length ≤ i → i < 16 →
        text[3 * i]? = some 0x20 ∧ text[3 * i + 1]? = some 0x20 ∧ text[3 * i + 2]? = some 0x20 ∧
        text[58 + i]? = some 0x20) ∧
      (∀ j, 48 ≤ j → j < 58 → text[j]? = some 0x20)

/-! ### The whole machine -/

/-- The invariant holds at reset. -/
def Obligations.InvariantHoldsAtReset : Prop := Inv State.reset

/-- Every step keeps the invariant (R22 to R31, R208, R239): the frame's canonical form, lengths within LEN_W, flags and
registers consistent, and each phase's own conditions. -/
def Obligations.EveryStepKeepsInvariant : Prop := ∀ s t : State, Inv s → step s = .next t → Inv t

/-- The parser is never stuck and never stops, in whatever state: its step answers a next state (R235: every byte pattern of
every length has an outcome). -/
def Obligations.ParserNeverStops : Prop :=
  ∀ s : State, (s.pending = [] ∨ ∃ rest, s.pending = .parser :: rest) → ∃ t, step s = .next t

/-- FAULT, FAULT_OFF and UNSUP are cleared only by an accepted START (R240) or by reset (R260). -/
def Obligations.FaultsClearedOnlyByStart : Prop :=
  ∀ s t : State, step s = .next t →
    (s.fault ≠ .clear ∧ t.fault = .clear) ∨ (s.faultOff ≠ none ∧ t.faultOff = none) ∨ (s.unsup = true ∧ t.unsup = false) →
    ∃ rest, (s.pending = .host (.writeStart 1) :: rest ∧ busy s = false) ∨ s.pending = .host .reset :: rest

/-- The parser never writes CMD, TARGET, FLEN or the frame (R21, R33), whichever operation it performs. -/
def Obligations.ParserNeverWritesInputs : Prop := ∀ i s t, exec i s = .next t → SameInputs s t

/-- OFF never decreases within a command (R24): no operation moves the cursor back. -/
def Obligations.CursorNeverDecreases : Prop := ∀ i s t, exec i s = .next t → s.off ≤ t.off

/-- Only an accepted START makes the block busy: in IDLE and DONE the parser has no step (R201), and no other move starts a
command. -/
def Obligations.OnlyStartMakesBusy : Prop :=
  ∀ s t : State, step s = .next t → busy s = false → busy t = true →
    ∃ rest, s.pending = .host (.writeStart 1) :: rest

/-- No byte below offset 14 and none at or past FLEN is ever read by an operation of the parser (R62, R72): another frame that
agrees on [14, FLEN) gives the same outcome, its own bytes apart. -/
def Obligations.OnlyBytesInsideAreRead : Prop :=
  ∀ (i : Instr) (s : State) (m : Memory), i.isFunction = false → 14 ≤ s.off →
    (∀ a, 14 ≤ a → a < s.flen → frameByte { s with frame := m } a = frameByte s a) →
    exec i { s with frame := m } = withFrame m (exec i s)

/-- Nothing a command leaves behind influences the next (R35, R274): two states that agree on the host-written registers and
the frame are the same after an accepted START, the model's own fields being equal. -/
def Obligations.NoCarryOverBetweenCommands : Prop :=
  ∀ s t : State, SameInputs s t → SameModelFields s t → busy s = false → busy t = false →
    writeStart 1 s = writeStart 1 t

/-- Chunks the consumer has taken are never retracted (R260, R272), whatever the step. -/
def Obligations.TakenChunksStayTaken : Prop := ∀ s t : State, step s = .next t → s.taken <+: t.taken

/-- The consumer takes chunks in ascending order of the stream, each once (R272). -/
def Obligations.TakeGivesTheNextChunk : Prop :=
  ∀ s rest c, s.pending = .host .take :: rest → s.chunks[s.takePos]? = some c →
    step s = .next { s with pending := rest, taken := s.taken ++ [c], takePos := s.takePos + 1 }

/-! ### Codes, and the moves not covered above -/

/-- The numbers a host reads for the named values: PHASE (R22), FAULT (R231), L4_TAG (R112) and PNAME (R113). -/
def Obligations.RegisterCodes : Prop :=
  Phase.idle.code = 0 ∧ Phase.ipdec.code = 1 ∧ Phase.demux.code = 2 ∧ Phase.l4dec.code = 3 ∧ Phase.payload.code = 4 ∧
  Phase.done.code = 5 ∧
  FaultCode.clear.code = 0 ∧ FaultCode.truncIp.code = 1 ∧ FaultCode.malformedIp.code = 2 ∧ FaultCode.truncL4.code = 3 ∧
  FaultCode.malformedL4.code = 4 ∧
  L4Tag.unknown.code = 0 ∧ L4Tag.icmp.code = 1 ∧ L4Tag.tcp.code = 2 ∧ L4Tag.udp.code = 3 ∧
  ProtoName.undefined.code = 0 ∧ ProtoName.icmp.code = 1 ∧ ProtoName.igmp.code = 2 ∧ ProtoName.tcp.code = 3 ∧
  ProtoName.udp.code = 4 ∧ ProtoName.p41.code = 5 ∧ ProtoName.ospf.code = 6 ∧ ProtoName.sctp.code = 7

/-- The moves no other statement covers, each THE MODEL'S OWN CHOICE: with steps fused a command is one step (log 4); phase
L4DEC with the tag UNKNOWN, which R203 excludes, runs DEC_UNKNOWN (R177) whatever IP_PROTO holds, in the row IP_PROTO selects
where it selects one of the five (log 14); with no tag it runs the decoder of a free tag (log 16); a queued call of an operation
that is no function is refused (log 6); taking where the stream has no further chunk only takes the move off (log 5). -/
def Obligations.RemainingMoves : Prop :=
  (∀ s, s.pending = [] → s.phase = .ipdec → s.cmd = 0 → s.fused = true → step s = exec .parse s) ∧
  (∀ s, s.pending = [] → s.phase = .l4dec → s.l4Tag = some .unknown → step s = .next { s with
    unsup := true, l4Hlen := some 0, payOff := some s.off, payLen := some (s.flen - s.off), phase := .payload }) ∧
  (∀ s p, s.pending = [] → s.phase = .l4dec → s.l4Tag = some .unknown → s.ip.proto = some p → tagOf p = .unknown →
    step s = exec (decodeProto p) s) ∧
  (∀ s, s.pending = [] → s.phase = .l4dec → s.l4Tag = none → step s =
    if Config.freeTag s.draws = 1 then exec .decIcmp { s with draws := s.draws + 1 }
    else if Config.freeTag s.draws = 2 then exec .decTcp { s with draws := s.draws + 1 }
    else if Config.freeTag s.draws = 3 then exec .decUdp { s with draws := s.draws + 1 }
    else .next { s with
      draws := s.draws + 1, unsup := true, l4Hlen := some 0
      payOff := some s.off, payLen := some (s.flen - s.off), phase := .payload }) ∧
  (∀ s i rest, s.pending = .call i :: rest → i.isFunction = false → step s = .refused .notAFunction) ∧
  (∀ s rest, s.pending = .host .take :: rest → s.chunks[s.takePos]? = none → step s = .next { s with pending := rest })

end
end

