-- ==== Sys2Proof/Laws/Bits.lean ====
section
/-! SUPPORT. The numeric meaning of the field-assembly helpers (spec/20_memory.md R65 to R67, spec/30_encoding.md R100, R101)
and of the wire-order byte lists: the lemmas by which a field is read, so that no proof unfolds a helper. -/

namespace Sys2Proof

/-- Appending n bits on the right is multiplying by 2^n and adding. -/
theorem append_toNat {m n : Nat} (x : BitVec m) (y : BitVec n) : (x ++ y).toNat = x.toNat * 2 ^ n + y.toNat := by
  rw [BitVec.toNat_append, ← Nat.shiftLeft_add_eq_or_of_lt y.isLt, Nat.shiftLeft_eq]

/-- R65. -/
theorem be16_toNat (v : Nat → Byte) (a : Nat) : (be16 v a).toNat = (v a).toNat * 256 + (v (a + 1)).toNat :=
  append_toNat (v a) (v (a + 1))

/-- R66. -/
theorem be32_toNat (v : Nat → Byte) (a : Nat) :
    (be32 v a).toNat =
      (v a).toNat * 2 ^ 24 + (v (a + 1)).toNat * 2 ^ 16 + (v (a + 2)).toNat * 2 ^ 8 + (v (a + 3)).toNat := by
  have h3 : (be32 v a).toNat = (v a ++ v (a + 1) ++ v (a + 2)).toNat * 2 ^ 8 + (v (a + 3)).toNat := append_toNat _ _
  rw [h3, append_toNat, append_toNat]
  omega

/-- R67. -/
theorem byteBits_toNat (b : Byte) (hi lo : Nat) :
    (byteBits b hi lo).toNat = b.toNat / 2 ^ lo % 2 ^ (hi - lo + 1) := by
  simp [byteBits, BitVec.extractLsb, BitVec.extractLsb'_toNat, Nat.shiftRight_eq_div_pow]

/-- R67, on a 16-bit word. -/
theorem halfBits_toNat (w : Half) (hi lo : Nat) :
    (halfBits w hi lo).toNat = w.toNat / 2 ^ lo % 2 ^ (hi - lo + 1) := by
  simp [halfBits, BitVec.extractLsb, BitVec.extractLsb'_toNat, Nat.shiftRight_eq_div_pow]

/-- A 16-bit value read back from its own bytes. -/
theorem be16_halfBytes (h : Half) : be16 (viewOf (halfBytes h)) 0 = h := by
  apply BitVec.eq_of_toNat_eq
  have := h.isLt
  rw [be16_toNat]
  simp [viewOf, halfBytes, BitVec.extractLsb, BitVec.extractLsb'_toNat, Nat.shiftRight_eq_div_pow]
  omega

/-- A 32-bit value read back from its own bytes. -/
theorem be32_wordBytes (w : Word) : be32 (viewOf (wordBytes w)) 0 = w := by
  apply BitVec.eq_of_toNat_eq
  have := w.isLt
  rw [be32_toNat]
  simp [viewOf, wordBytes, BitVec.extractLsb, BitVec.extractLsb'_toNat, Nat.shiftRight_eq_div_pow]
  omega

/-- The bytes of a 16-bit read are the bytes read. -/
theorem halfBytes_be16 (v : Nat → Byte) (a : Nat) : halfBytes (be16 v a) = [v a, v (a + 1)] := by
  have := (v a).isLt
  have := (v (a + 1)).isLt
  simp only [halfBytes, List.cons.injEq, and_true]
  constructor <;> apply BitVec.eq_of_toNat_eq <;>
    simp [BitVec.extractLsb, BitVec.extractLsb'_toNat, Nat.shiftRight_eq_div_pow, be16_toNat] <;> omega

/-- The bytes of a 32-bit read are the bytes read. -/
theorem wordBytes_be32 (v : Nat → Byte) (a : Nat) :
    wordBytes (be32 v a) = [v a, v (a + 1), v (a + 2), v (a + 3)] := by
  have := (v a).isLt
  have := (v (a + 1)).isLt
  have := (v (a + 2)).isLt
  have := (v (a + 3)).isLt
  simp only [wordBytes, List.cons.injEq, and_true]
  refine ⟨?_, ?_, ?_, ?_⟩ <;> apply BitVec.eq_of_toNat_eq <;>
    simp [BitVec.extractLsb, BitVec.extractLsb'_toNat, Nat.shiftRight_eq_div_pow, be32_toNat] <;> omega

/-- R101: a length in words times four fits six bits. -/
@[simp] theorem wordsToBytes_toNat (n : BitVec 4) : (wordsToBytes n).toNat = n.toNat * 4 := by
  revert n; decide

/-- R101, as the product. -/
theorem wordsToBytes_eq (n : BitVec 4) : wordsToBytes n = BitVec.ofNat 6 (n.toNat * 4) := by
  revert n; decide

end Sys2Proof
end

