-- ==== Sys2Proof/Laws/Memory.lean ====
section
/-! SUPPORT. The laws of the frame memory: a read after a write, and that every operation keeps the canonical form. -/

namespace Sys2Proof.Machine

theorem Memory.find_store_same (m : Memory) (a : Nat) (v : Byte) : Memory.find (Memory.store m a v) a = some v := by
  induction m with
  | nil => simp [Memory.store, Memory.find]
  | cons e m ih =>
    obtain ⟨b, w⟩ := e
    simp only [Memory.store]
    split
    · simp [Memory.find]
    · split
      · simp [Memory.find]
      · rename_i h; simp [Memory.find, h, ih]

theorem Memory.find_store_other (m : Memory) (a c : Nat) (v : Byte) (h : c ≠ a) :
    Memory.find (Memory.store m a v) c = Memory.find m c := by
  induction m with
  | nil => simp [Memory.store, Memory.find, h]
  | cons e m ih =>
    obtain ⟨b, w⟩ := e
    simp only [Memory.store]
    split
    · simp [Memory.find, h]
    · split
      · rename_i hab; subst hab; simp [Memory.find, h]
      · simp [Memory.find, ih]

/-- A canonical memory's head may be put back before anything that starts above it. -/
theorem Memory.wf_cons (a : Nat) (v : Byte) (m : Memory) :
    Memory.wf ((a, v) :: m) = true ↔ (∀ b w n, m = (b, w) :: n → a < b) ∧ Memory.wf m = true := by
  cases m with
  | nil => simp [Memory.wf]
  | cons e n => obtain ⟨b, w⟩ := e; simp [Memory.wf]

/-- A store puts at the head either the old head or the address stored to. -/
theorem Memory.store_head (m : Memory) (a : Nat) (v : Byte) (b : Nat) (w : Byte) (n : Memory)
    (h : Memory.store m a v = (b, w) :: n) : b = a ∨ ∃ w' n', m = (b, w') :: n' := by
  cases m with
  | nil => simp [Memory.store] at h; exact .inl h.1.1.symm
  | cons e m =>
    obtain ⟨c, u⟩ := e
    simp only [Memory.store] at h
    split at h
    · simp at h; exact .inl h.1.1.symm
    · split at h
      · simp at h; exact .inl h.1.1.symm
      · simp at h; exact .inr ⟨u, m, by rw [h.1.1]⟩

theorem Memory.wf_store (m : Memory) (a : Nat) (v : Byte) (h : Memory.wf m = true) :
    Memory.wf (Memory.store m a v) = true := by
  induction m with
  | nil => simp [Memory.store, Memory.wf]
  | cons e m ih =>
    obtain ⟨b, w⟩ := e
    obtain ⟨hlt, hm⟩ := (Memory.wf_cons b w m).1 h
    simp only [Memory.store]
    split
    · rename_i hab; simp [Memory.wf, hab, h]
    · split
      · rename_i hab; subst hab; exact (Memory.wf_cons a v m).2 ⟨hlt, hm⟩
      · rename_i h1 h2
        refine (Memory.wf_cons b w _).2 ⟨fun c u n hc => ?_, ih hm⟩
        rcases Memory.store_head m a v c u n hc with rfl | ⟨w', n', rfl⟩
        · omega
        · exact hlt c w' n' rfl

theorem Memory.wf_storeAll (m : Memory) (a : Nat) (vs : List Byte) (h : Memory.wf m = true) :
    Memory.wf (Memory.storeAll m a vs) = true := by
  induction vs generalizing m a with
  | nil => exact h
  | cons v vs ih => exact ih _ _ (Memory.wf_store m a v h)

/-- Outside the stored span nothing changes. -/
theorem Memory.find_storeAll_other (m : Memory) (a c : Nat) (vs : List Byte) (h : c < a ∨ a + vs.length ≤ c) :
    Memory.find (Memory.storeAll m a vs) c = Memory.find m c := by
  induction vs generalizing m a with
  | nil => rfl
  | cons v vs ih =>
    simp only [List.length_cons] at h
    simp only [Memory.storeAll]
    rw [ih _ _ (by omega), Memory.find_store_other _ _ _ _ (by omega)]

/-- Inside the stored span a read gives the byte stored. -/
theorem Memory.find_storeAll_inside (m : Memory) (a i : Nat) (vs : List Byte) (h : i < vs.length) :
    Memory.find (Memory.storeAll m a vs) (a + i) = vs[i]? := by
  induction vs generalizing m a i with
  | nil => simp at h
  | cons v vs ih =>
    simp only [Memory.storeAll]
    cases i with
    | zero =>
      rw [Memory.find_storeAll_other _ _ _ _ (by omega)]
      simpa using Memory.find_store_same m a v
    | succ i =>
      have := ih (Memory.store m a v) (a + 1) i (by simpa using h)
      rw [show a + (i + 1) = a + 1 + i by omega, this]
      simp

/-- A slice's length. -/
@[simp] theorem Memory.slice_length (m : Memory) (a n : Nat) : (Memory.slice m a n).length = n := by
  induction n generalizing a with
  | zero => rfl
  | succ n ih => simp [Memory.slice, ih]

/-- A slice's bytes. -/
theorem Memory.slice_get (m : Memory) (a n i : Nat) (h : i < n) :
    (Memory.slice m a n)[i]? = some (Memory.byte m (a + i)) := by
  induction n generalizing a i with
  | zero => omega
  | succ n ih =>
    cases i with
    | zero => simp [Memory.slice]
    | succ i =>
      simp only [Memory.slice, List.getElem?_cons_succ]
      rw [ih (a + 1) i (by omega), show a + 1 + i = a + (i + 1) by omega]

/-- Two adjoining slices are one. -/
theorem Memory.slice_append (m : Memory) (a n k : Nat) :
    Memory.slice m a n ++ Memory.slice m (a + n) k = Memory.slice m a (n + k) := by
  induction n generalizing a with
  | zero => simp [Memory.slice]
  | succ n ih =>
    rw [show n + 1 + k = (n + k) + 1 by omega]
    simp only [Memory.slice, List.cons_append]
    rw [show a + (n + 1) = a + 1 + n by omega, ih (a + 1)]

/-- Slices of memories that read alike on the span are equal. -/
theorem Memory.slice_congr (m m' : Memory) (a n : Nat)
    (h : ∀ c, a ≤ c → c < a + n → Memory.byte m' c = Memory.byte m c) : Memory.slice m' a n = Memory.slice m a n := by
  induction n generalizing a with
  | zero => rfl
  | succ n ih =>
    simp only [Memory.slice]
    rw [h a (by omega) (by omega), ih (a + 1) fun c h1 h2 => h c (by omega) (by omega)]

/-- SLICE's length (R68). -/
@[simp] theorem sliceBytes_length (s : State) (a n : Nat) : (sliceBytes s a n).length = n := Memory.slice_length _ _ _

/-- SLICE's bytes (R68). -/
theorem sliceBytes_get (s : State) (a n i : Nat) (h : i < n) : (sliceBytes s a n)[i]? = some (frameByte s (a + i)) :=
  Memory.slice_get _ _ _ _ h

end Sys2Proof.Machine
end

