-- ==== Sys2Proof/Laws/State.lean ====
section
/-! SUPPORT. One lemma per field per named update of State, true by unfolding: no later proof unfolds a record update. -/

namespace Sys2Proof.Machine

/-! ### raiseIp -/

@[simp] theorem raiseIp_cmd (c : FaultCode) (p : Nat) (s : State) : (raiseIp c p s).cmd = s.cmd := rfl
@[simp] theorem raiseIp_target (c : FaultCode) (p : Nat) (s : State) : (raiseIp c p s).target = s.target := rfl
@[simp] theorem raiseIp_flen (c : FaultCode) (p : Nat) (s : State) : (raiseIp c p s).flen = s.flen := rfl
@[simp] theorem raiseIp_phase (c : FaultCode) (p : Nat) (s : State) : (raiseIp c p s).phase = .done := rfl
@[simp] theorem raiseIp_fault (c : FaultCode) (p : Nat) (s : State) : (raiseIp c p s).fault = c := rfl
@[simp] theorem raiseIp_faultOff (c : FaultCode) (p : Nat) (s : State) : (raiseIp c p s).faultOff = some p := rfl
@[simp] theorem raiseIp_ipValid (c : FaultCode) (p : Nat) (s : State) : (raiseIp c p s).ipValid = s.ipValid := rfl
@[simp] theorem raiseIp_l4Valid (c : FaultCode) (p : Nat) (s : State) : (raiseIp c p s).l4Valid = s.l4Valid := rfl
@[simp] theorem raiseIp_unsup (c : FaultCode) (p : Nat) (s : State) : (raiseIp c p s).unsup = s.unsup := rfl
@[simp] theorem raiseIp_matchValid (c : FaultCode) (p : Nat) (s : State) : (raiseIp c p s).matchValid = s.matchValid := rfl
@[simp] theorem raiseIp_matchBit (c : FaultCode) (p : Nat) (s : State) : (raiseIp c p s).matchBit = s.matchBit := rfl
@[simp] theorem raiseIp_off (c : FaultCode) (p : Nat) (s : State) : (raiseIp c p s).off = s.off := rfl
@[simp] theorem raiseIp_ip (c : FaultCode) (p : Nat) (s : State) : (raiseIp c p s).ip = s.ip := rfl
@[simp] theorem raiseIp_l4Tag (c : FaultCode) (p : Nat) (s : State) : (raiseIp c p s).l4Tag = s.l4Tag := rfl
@[simp] theorem raiseIp_l4Hlen (c : FaultCode) (p : Nat) (s : State) : (raiseIp c p s).l4Hlen = s.l4Hlen := rfl
@[simp] theorem raiseIp_tcp (c : FaultCode) (p : Nat) (s : State) : (raiseIp c p s).tcp = s.tcp := rfl
@[simp] theorem raiseIp_udp (c : FaultCode) (p : Nat) (s : State) : (raiseIp c p s).udp = s.udp := rfl
@[simp] theorem raiseIp_icmp (c : FaultCode) (p : Nat) (s : State) : (raiseIp c p s).icmp = s.icmp := rfl
@[simp] theorem raiseIp_payOff (c : FaultCode) (p : Nat) (s : State) : (raiseIp c p s).payOff = s.payOff := rfl
@[simp] theorem raiseIp_payLen (c : FaultCode) (p : Nat) (s : State) : (raiseIp c p s).payLen = s.payLen := rfl
@[simp] theorem raiseIp_chCount (c : FaultCode) (p : Nat) (s : State) : (raiseIp c p s).chCount = s.chCount := rfl
@[simp] theorem raiseIp_chunks (c : FaultCode) (p : Nat) (s : State) : (raiseIp c p s).chunks = s.chunks := rfl
@[simp] theorem raiseIp_frame (c : FaultCode) (p : Nat) (s : State) : (raiseIp c p s).frame = s.frame := rfl
@[simp] theorem raiseIp_pending (c : FaultCode) (p : Nat) (s : State) : (raiseIp c p s).pending = s.pending := rfl
@[simp] theorem raiseIp_fused (c : FaultCode) (p : Nat) (s : State) : (raiseIp c p s).fused = s.fused := rfl
@[simp] theorem raiseIp_reply (c : FaultCode) (p : Nat) (s : State) : (raiseIp c p s).reply = s.reply := rfl
@[simp] theorem raiseIp_taken (c : FaultCode) (p : Nat) (s : State) : (raiseIp c p s).taken = s.taken := rfl
@[simp] theorem raiseIp_takePos (c : FaultCode) (p : Nat) (s : State) : (raiseIp c p s).takePos = s.takePos := rfl
@[simp] theorem raiseIp_ret (c : FaultCode) (p : Nat) (s : State) : (raiseIp c p s).ret = s.ret := rfl
@[simp] theorem raiseIp_draws (c : FaultCode) (p : Nat) (s : State) : (raiseIp c p s).draws = s.draws := rfl

/-! ### raiseL4 -/

@[simp] theorem raiseL4_cmd (c : FaultCode) (q : Nat) (s : State) : (raiseL4 c q s).cmd = s.cmd := rfl
@[simp] theorem raiseL4_target (c : FaultCode) (q : Nat) (s : State) : (raiseL4 c q s).target = s.target := rfl
@[simp] theorem raiseL4_flen (c : FaultCode) (q : Nat) (s : State) : (raiseL4 c q s).flen = s.flen := rfl
@[simp] theorem raiseL4_phase (c : FaultCode) (q : Nat) (s : State) : (raiseL4 c q s).phase = s.phase := rfl
@[simp] theorem raiseL4_fault (c : FaultCode) (q : Nat) (s : State) : (raiseL4 c q s).fault = c := rfl
@[simp] theorem raiseL4_faultOff (c : FaultCode) (q : Nat) (s : State) : (raiseL4 c q s).faultOff = some q := rfl
@[simp] theorem raiseL4_ipValid (c : FaultCode) (q : Nat) (s : State) : (raiseL4 c q s).ipValid = s.ipValid := rfl
@[simp] theorem raiseL4_l4Valid (c : FaultCode) (q : Nat) (s : State) : (raiseL4 c q s).l4Valid = s.l4Valid := rfl
@[simp] theorem raiseL4_unsup (c : FaultCode) (q : Nat) (s : State) : (raiseL4 c q s).unsup = s.unsup := rfl
@[simp] theorem raiseL4_matchValid (c : FaultCode) (q : Nat) (s : State) : (raiseL4 c q s).matchValid = s.matchValid := rfl
@[simp] theorem raiseL4_matchBit (c : FaultCode) (q : Nat) (s : State) : (raiseL4 c q s).matchBit = s.matchBit := rfl
@[simp] theorem raiseL4_off (c : FaultCode) (q : Nat) (s : State) : (raiseL4 c q s).off = s.off := rfl
@[simp] theorem raiseL4_ip (c : FaultCode) (q : Nat) (s : State) : (raiseL4 c q s).ip = s.ip := rfl
@[simp] theorem raiseL4_l4Tag (c : FaultCode) (q : Nat) (s : State) : (raiseL4 c q s).l4Tag = s.l4Tag := rfl
@[simp] theorem raiseL4_l4Hlen (c : FaultCode) (q : Nat) (s : State) : (raiseL4 c q s).l4Hlen = some 0 := rfl
@[simp] theorem raiseL4_tcp (c : FaultCode) (q : Nat) (s : State) : (raiseL4 c q s).tcp = s.tcp := rfl
@[simp] theorem raiseL4_udp (c : FaultCode) (q : Nat) (s : State) : (raiseL4 c q s).udp = s.udp := rfl
@[simp] theorem raiseL4_icmp (c : FaultCode) (q : Nat) (s : State) : (raiseL4 c q s).icmp = s.icmp := rfl
@[simp] theorem raiseL4_payOff (c : FaultCode) (q : Nat) (s : State) : (raiseL4 c q s).payOff = s.payOff := rfl
@[simp] theorem raiseL4_payLen (c : FaultCode) (q : Nat) (s : State) : (raiseL4 c q s).payLen = s.payLen := rfl
@[simp] theorem raiseL4_chCount (c : FaultCode) (q : Nat) (s : State) : (raiseL4 c q s).chCount = s.chCount := rfl
@[simp] theorem raiseL4_chunks (c : FaultCode) (q : Nat) (s : State) : (raiseL4 c q s).chunks = s.chunks := rfl
@[simp] theorem raiseL4_frame (c : FaultCode) (q : Nat) (s : State) : (raiseL4 c q s).frame = s.frame := rfl
@[simp] theorem raiseL4_pending (c : FaultCode) (q : Nat) (s : State) : (raiseL4 c q s).pending = s.pending := rfl
@[simp] theorem raiseL4_fused (c : FaultCode) (q : Nat) (s : State) : (raiseL4 c q s).fused = s.fused := rfl
@[simp] theorem raiseL4_reply (c : FaultCode) (q : Nat) (s : State) : (raiseL4 c q s).reply = s.reply := rfl
@[simp] theorem raiseL4_taken (c : FaultCode) (q : Nat) (s : State) : (raiseL4 c q s).taken = s.taken := rfl
@[simp] theorem raiseL4_takePos (c : FaultCode) (q : Nat) (s : State) : (raiseL4 c q s).takePos = s.takePos := rfl
@[simp] theorem raiseL4_ret (c : FaultCode) (q : Nat) (s : State) : (raiseL4 c q s).ret = s.ret := rfl
@[simp] theorem raiseL4_draws (c : FaultCode) (q : Nat) (s : State) : (raiseL4 c q s).draws = s.draws := rfl

/-! ### enterPayload -/

@[simp] theorem enterPayload_cmd (s : State) : (enterPayload s).cmd = s.cmd := rfl
@[simp] theorem enterPayload_target (s : State) : (enterPayload s).target = s.target := rfl
@[simp] theorem enterPayload_flen (s : State) : (enterPayload s).flen = s.flen := rfl
@[simp] theorem enterPayload_phase (s : State) : (enterPayload s).phase = .payload := rfl
@[simp] theorem enterPayload_fault (s : State) : (enterPayload s).fault = s.fault := rfl
@[simp] theorem enterPayload_faultOff (s : State) : (enterPayload s).faultOff = s.faultOff := rfl
@[simp] theorem enterPayload_ipValid (s : State) : (enterPayload s).ipValid = s.ipValid := rfl
@[simp] theorem enterPayload_l4Valid (s : State) : (enterPayload s).l4Valid = s.l4Valid := rfl
@[simp] theorem enterPayload_unsup (s : State) : (enterPayload s).unsup = s.unsup := rfl
@[simp] theorem enterPayload_matchValid (s : State) : (enterPayload s).matchValid = s.matchValid := rfl
@[simp] theorem enterPayload_matchBit (s : State) : (enterPayload s).matchBit = s.matchBit := rfl
@[simp] theorem enterPayload_off (s : State) : (enterPayload s).off = s.off := rfl
@[simp] theorem enterPayload_ip (s : State) : (enterPayload s).ip = s.ip := rfl
@[simp] theorem enterPayload_l4Tag (s : State) : (enterPayload s).l4Tag = s.l4Tag := rfl
@[simp] theorem enterPayload_l4Hlen (s : State) : (enterPayload s).l4Hlen = s.l4Hlen := rfl
@[simp] theorem enterPayload_tcp (s : State) : (enterPayload s).tcp = s.tcp := rfl
@[simp] theorem enterPayload_udp (s : State) : (enterPayload s).udp = s.udp := rfl
@[simp] theorem enterPayload_icmp (s : State) : (enterPayload s).icmp = s.icmp := rfl
@[simp] theorem enterPayload_payOff (s : State) : (enterPayload s).payOff = some s.off := rfl
@[simp] theorem enterPayload_payLen (s : State) : (enterPayload s).payLen = some (s.flen - s.off) := rfl
@[simp] theorem enterPayload_chCount (s : State) : (enterPayload s).chCount = s.chCount := rfl
@[simp] theorem enterPayload_chunks (s : State) : (enterPayload s).chunks = s.chunks := rfl
@[simp] theorem enterPayload_frame (s : State) : (enterPayload s).frame = s.frame := rfl
@[simp] theorem enterPayload_pending (s : State) : (enterPayload s).pending = s.pending := rfl
@[simp] theorem enterPayload_fused (s : State) : (enterPayload s).fused = s.fused := rfl
@[simp] theorem enterPayload_reply (s : State) : (enterPayload s).reply = s.reply := rfl
@[simp] theorem enterPayload_taken (s : State) : (enterPayload s).taken = s.taken := rfl
@[simp] theorem enterPayload_takePos (s : State) : (enterPayload s).takePos = s.takePos := rfl
@[simp] theorem enterPayload_ret (s : State) : (enterPayload s).ret = s.ret := rfl
@[simp] theorem enterPayload_draws (s : State) : (enterPayload s).draws = s.draws := rfl

/-! ### noteUnsupported -/

@[simp] theorem noteUnsupported_cmd (s : State) : (noteUnsupported s).cmd = s.cmd := rfl
@[simp] theorem noteUnsupported_target (s : State) : (noteUnsupported s).target = s.target := rfl
@[simp] theorem noteUnsupported_flen (s : State) : (noteUnsupported s).flen = s.flen := rfl
@[simp] theorem noteUnsupported_phase (s : State) : (noteUnsupported s).phase = s.phase := rfl
@[simp] theorem noteUnsupported_fault (s : State) : (noteUnsupported s).fault = s.fault := rfl
@[simp] theorem noteUnsupported_faultOff (s : State) : (noteUnsupported s).faultOff = s.faultOff := rfl
@[simp] theorem noteUnsupported_ipValid (s : State) : (noteUnsupported s).ipValid = s.ipValid := rfl
@[simp] theorem noteUnsupported_l4Valid (s : State) : (noteUnsupported s).l4Valid = s.l4Valid := rfl
@[simp] theorem noteUnsupported_unsup (s : State) : (noteUnsupported s).unsup = true := rfl
@[simp] theorem noteUnsupported_matchValid (s : State) : (noteUnsupported s).matchValid = s.matchValid := rfl
@[simp] theorem noteUnsupported_matchBit (s : State) : (noteUnsupported s).matchBit = s.matchBit := rfl
@[simp] theorem noteUnsupported_off (s : State) : (noteUnsupported s).off = s.off := rfl
@[simp] theorem noteUnsupported_ip (s : State) : (noteUnsupported s).ip = s.ip := rfl
@[simp] theorem noteUnsupported_l4Tag (s : State) : (noteUnsupported s).l4Tag = s.l4Tag := rfl
@[simp] theorem noteUnsupported_l4Hlen (s : State) : (noteUnsupported s).l4Hlen = some 0 := rfl
@[simp] theorem noteUnsupported_tcp (s : State) : (noteUnsupported s).tcp = s.tcp := rfl
@[simp] theorem noteUnsupported_udp (s : State) : (noteUnsupported s).udp = s.udp := rfl
@[simp] theorem noteUnsupported_icmp (s : State) : (noteUnsupported s).icmp = s.icmp := rfl
@[simp] theorem noteUnsupported_payOff (s : State) : (noteUnsupported s).payOff = s.payOff := rfl
@[simp] theorem noteUnsupported_payLen (s : State) : (noteUnsupported s).payLen = s.payLen := rfl
@[simp] theorem noteUnsupported_chCount (s : State) : (noteUnsupported s).chCount = s.chCount := rfl
@[simp] theorem noteUnsupported_chunks (s : State) : (noteUnsupported s).chunks = s.chunks := rfl
@[simp] theorem noteUnsupported_frame (s : State) : (noteUnsupported s).frame = s.frame := rfl
@[simp] theorem noteUnsupported_pending (s : State) : (noteUnsupported s).pending = s.pending := rfl
@[simp] theorem noteUnsupported_fused (s : State) : (noteUnsupported s).fused = s.fused := rfl
@[simp] theorem noteUnsupported_reply (s : State) : (noteUnsupported s).reply = s.reply := rfl
@[simp] theorem noteUnsupported_taken (s : State) : (noteUnsupported s).taken = s.taken := rfl
@[simp] theorem noteUnsupported_takePos (s : State) : (noteUnsupported s).takePos = s.takePos := rfl
@[simp] theorem noteUnsupported_ret (s : State) : (noteUnsupported s).ret = s.ret := rfl
@[simp] theorem noteUnsupported_draws (s : State) : (noteUnsupported s).draws = s.draws := rfl

/-! ### consumeL4 -/

@[simp] theorem consumeL4_cmd (n : BitVec 6) (s : State) : (consumeL4 n s).cmd = s.cmd := rfl
@[simp] theorem consumeL4_target (n : BitVec 6) (s : State) : (consumeL4 n s).target = s.target := rfl
@[simp] theorem consumeL4_flen (n : BitVec 6) (s : State) : (consumeL4 n s).flen = s.flen := rfl
@[simp] theorem consumeL4_phase (n : BitVec 6) (s : State) : (consumeL4 n s).phase = s.phase := rfl
@[simp] theorem consumeL4_fault (n : BitVec 6) (s : State) : (consumeL4 n s).fault = s.fault := rfl
@[simp] theorem consumeL4_faultOff (n : BitVec 6) (s : State) : (consumeL4 n s).faultOff = s.faultOff := rfl
@[simp] theorem consumeL4_ipValid (n : BitVec 6) (s : State) : (consumeL4 n s).ipValid = s.ipValid := rfl
@[simp] theorem consumeL4_l4Valid (n : BitVec 6) (s : State) : (consumeL4 n s).l4Valid = true := rfl
@[simp] theorem consumeL4_unsup (n : BitVec 6) (s : State) : (consumeL4 n s).unsup = s.unsup := rfl
@[simp] theorem consumeL4_matchValid (n : BitVec 6) (s : State) : (consumeL4 n s).matchValid = s.matchValid := rfl
@[simp] theorem consumeL4_matchBit (n : BitVec 6) (s : State) : (consumeL4 n s).matchBit = s.matchBit := rfl
@[simp] theorem consumeL4_off (n : BitVec 6) (s : State) : (consumeL4 n s).off = s.off + n.toNat := rfl
@[simp] theorem consumeL4_ip (n : BitVec 6) (s : State) : (consumeL4 n s).ip = s.ip := rfl
@[simp] theorem consumeL4_l4Tag (n : BitVec 6) (s : State) : (consumeL4 n s).l4Tag = s.l4Tag := rfl
@[simp] theorem consumeL4_l4Hlen (n : BitVec 6) (s : State) : (consumeL4 n s).l4Hlen = some n := rfl
@[simp] theorem consumeL4_tcp (n : BitVec 6) (s : State) : (consumeL4 n s).tcp = s.tcp := rfl
@[simp] theorem consumeL4_udp (n : BitVec 6) (s : State) : (consumeL4 n s).udp = s.udp := rfl
@[simp] theorem consumeL4_icmp (n : BitVec 6) (s : State) : (consumeL4 n s).icmp = s.icmp := rfl
@[simp] theorem consumeL4_payOff (n : BitVec 6) (s : State) : (consumeL4 n s).payOff = s.payOff := rfl
@[simp] theorem consumeL4_payLen (n : BitVec 6) (s : State) : (consumeL4 n s).payLen = s.payLen := rfl
@[simp] theorem consumeL4_chCount (n : BitVec 6) (s : State) : (consumeL4 n s).chCount = s.chCount := rfl
@[simp] theorem consumeL4_chunks (n : BitVec 6) (s : State) : (consumeL4 n s).chunks = s.chunks := rfl
@[simp] theorem consumeL4_frame (n : BitVec 6) (s : State) : (consumeL4 n s).frame = s.frame := rfl
@[simp] theorem consumeL4_pending (n : BitVec 6) (s : State) : (consumeL4 n s).pending = s.pending := rfl
@[simp] theorem consumeL4_fused (n : BitVec 6) (s : State) : (consumeL4 n s).fused = s.fused := rfl
@[simp] theorem consumeL4_reply (n : BitVec 6) (s : State) : (consumeL4 n s).reply = s.reply := rfl
@[simp] theorem consumeL4_taken (n : BitVec 6) (s : State) : (consumeL4 n s).taken = s.taken := rfl
@[simp] theorem consumeL4_takePos (n : BitVec 6) (s : State) : (consumeL4 n s).takePos = s.takePos := rfl
@[simp] theorem consumeL4_ret (n : BitVec 6) (s : State) : (consumeL4 n s).ret = s.ret := rfl
@[simp] theorem consumeL4_draws (n : BitVec 6) (s : State) : (consumeL4 n s).draws = s.draws := rfl

/-! ### setRet -/

@[simp] theorem setRet_cmd (r : Ret) (s : State) : (setRet r s).cmd = s.cmd := rfl
@[simp] theorem setRet_target (r : Ret) (s : State) : (setRet r s).target = s.target := rfl
@[simp] theorem setRet_flen (r : Ret) (s : State) : (setRet r s).flen = s.flen := rfl
@[simp] theorem setRet_phase (r : Ret) (s : State) : (setRet r s).phase = s.phase := rfl
@[simp] theorem setRet_fault (r : Ret) (s : State) : (setRet r s).fault = s.fault := rfl
@[simp] theorem setRet_faultOff (r : Ret) (s : State) : (setRet r s).faultOff = s.faultOff := rfl
@[simp] theorem setRet_ipValid (r : Ret) (s : State) : (setRet r s).ipValid = s.ipValid := rfl
@[simp] theorem setRet_l4Valid (r : Ret) (s : State) : (setRet r s).l4Valid = s.l4Valid := rfl
@[simp] theorem setRet_unsup (r : Ret) (s : State) : (setRet r s).unsup = s.unsup := rfl
@[simp] theorem setRet_matchValid (r : Ret) (s : State) : (setRet r s).matchValid = s.matchValid := rfl
@[simp] theorem setRet_matchBit (r : Ret) (s : State) : (setRet r s).matchBit = s.matchBit := rfl
@[simp] theorem setRet_off (r : Ret) (s : State) : (setRet r s).off = s.off := rfl
@[simp] theorem setRet_ip (r : Ret) (s : State) : (setRet r s).ip = s.ip := rfl
@[simp] theorem setRet_l4Tag (r : Ret) (s : State) : (setRet r s).l4Tag = s.l4Tag := rfl
@[simp] theorem setRet_l4Hlen (r : Ret) (s : State) : (setRet r s).l4Hlen = s.l4Hlen := rfl
@[simp] theorem setRet_tcp (r : Ret) (s : State) : (setRet r s).tcp = s.tcp := rfl
@[simp] theorem setRet_udp (r : Ret) (s : State) : (setRet r s).udp = s.udp := rfl
@[simp] theorem setRet_icmp (r : Ret) (s : State) : (setRet r s).icmp = s.icmp := rfl
@[simp] theorem setRet_payOff (r : Ret) (s : State) : (setRet r s).payOff = s.payOff := rfl
@[simp] theorem setRet_payLen (r : Ret) (s : State) : (setRet r s).payLen = s.payLen := rfl
@[simp] theorem setRet_chCount (r : Ret) (s : State) : (setRet r s).chCount = s.chCount := rfl
@[simp] theorem setRet_chunks (r : Ret) (s : State) : (setRet r s).chunks = s.chunks := rfl
@[simp] theorem setRet_frame (r : Ret) (s : State) : (setRet r s).frame = s.frame := rfl
@[simp] theorem setRet_pending (r : Ret) (s : State) : (setRet r s).pending = s.pending := rfl
@[simp] theorem setRet_fused (r : Ret) (s : State) : (setRet r s).fused = s.fused := rfl
@[simp] theorem setRet_reply (r : Ret) (s : State) : (setRet r s).reply = s.reply := rfl
@[simp] theorem setRet_taken (r : Ret) (s : State) : (setRet r s).taken = s.taken := rfl
@[simp] theorem setRet_takePos (r : Ret) (s : State) : (setRet r s).takePos = s.takePos := rfl
@[simp] theorem setRet_ret (r : Ret) (s : State) : (setRet r s).ret = r := rfl
@[simp] theorem setRet_draws (r : Ret) (s : State) : (setRet r s).draws = s.draws := rfl

/-! ### draw -/

@[simp] theorem draw_cmd (s : State) : (draw s).cmd = s.cmd := rfl
@[simp] theorem draw_target (s : State) : (draw s).target = s.target := rfl
@[simp] theorem draw_flen (s : State) : (draw s).flen = s.flen := rfl
@[simp] theorem draw_phase (s : State) : (draw s).phase = s.phase := rfl
@[simp] theorem draw_fault (s : State) : (draw s).fault = s.fault := rfl
@[simp] theorem draw_faultOff (s : State) : (draw s).faultOff = s.faultOff := rfl
@[simp] theorem draw_ipValid (s : State) : (draw s).ipValid = s.ipValid := rfl
@[simp] theorem draw_l4Valid (s : State) : (draw s).l4Valid = s.l4Valid := rfl
@[simp] theorem draw_unsup (s : State) : (draw s).unsup = s.unsup := rfl
@[simp] theorem draw_matchValid (s : State) : (draw s).matchValid = s.matchValid := rfl
@[simp] theorem draw_matchBit (s : State) : (draw s).matchBit = s.matchBit := rfl
@[simp] theorem draw_off (s : State) : (draw s).off = s.off := rfl
@[simp] theorem draw_ip (s : State) : (draw s).ip = s.ip := rfl
@[simp] theorem draw_l4Tag (s : State) : (draw s).l4Tag = s.l4Tag := rfl
@[simp] theorem draw_l4Hlen (s : State) : (draw s).l4Hlen = s.l4Hlen := rfl
@[simp] theorem draw_tcp (s : State) : (draw s).tcp = s.tcp := rfl
@[simp] theorem draw_udp (s : State) : (draw s).udp = s.udp := rfl
@[simp] theorem draw_icmp (s : State) : (draw s).icmp = s.icmp := rfl
@[simp] theorem draw_payOff (s : State) : (draw s).payOff = s.payOff := rfl
@[simp] theorem draw_payLen (s : State) : (draw s).payLen = s.payLen := rfl
@[simp] theorem draw_chCount (s : State) : (draw s).chCount = s.chCount := rfl
@[simp] theorem draw_chunks (s : State) : (draw s).chunks = s.chunks := rfl
@[simp] theorem draw_frame (s : State) : (draw s).frame = s.frame := rfl
@[simp] theorem draw_pending (s : State) : (draw s).pending = s.pending := rfl
@[simp] theorem draw_fused (s : State) : (draw s).fused = s.fused := rfl
@[simp] theorem draw_reply (s : State) : (draw s).reply = s.reply := rfl
@[simp] theorem draw_taken (s : State) : (draw s).taken = s.taken := rfl
@[simp] theorem draw_takePos (s : State) : (draw s).takePos = s.takePos := rfl
@[simp] theorem draw_ret (s : State) : (draw s).ret = s.ret := rfl
@[simp] theorem draw_draws (s : State) : (draw s).draws = s.draws + 1 := rfl

/-! ### ipAccept -/

@[simp] theorem ipAccept_cmd (p : Nat) (s : State) : (ipAccept p s).cmd = s.cmd := rfl
@[simp] theorem ipAccept_target (p : Nat) (s : State) : (ipAccept p s).target = s.target := rfl
@[simp] theorem ipAccept_flen (p : Nat) (s : State) : (ipAccept p s).flen = s.flen := rfl
@[simp] theorem ipAccept_phase (p : Nat) (s : State) : (ipAccept p s).phase = .demux := rfl
@[simp] theorem ipAccept_fault (p : Nat) (s : State) : (ipAccept p s).fault = s.fault := rfl
@[simp] theorem ipAccept_faultOff (p : Nat) (s : State) : (ipAccept p s).faultOff = s.faultOff := rfl
@[simp] theorem ipAccept_ipValid (p : Nat) (s : State) : (ipAccept p s).ipValid = true := rfl
@[simp] theorem ipAccept_l4Valid (p : Nat) (s : State) : (ipAccept p s).l4Valid = s.l4Valid := rfl
@[simp] theorem ipAccept_unsup (p : Nat) (s : State) : (ipAccept p s).unsup = s.unsup := rfl
@[simp] theorem ipAccept_matchValid (p : Nat) (s : State) : (ipAccept p s).matchValid = s.matchValid := rfl
@[simp] theorem ipAccept_matchBit (p : Nat) (s : State) : (ipAccept p s).matchBit = s.matchBit := rfl
@[simp] theorem ipAccept_off (p : Nat) (s : State) : (ipAccept p s).off = p + (wordsToBytes (ipHeaderAt s p).ihl).toNat := rfl
@[simp] theorem ipAccept_ip (p : Nat) (s : State) : (ipAccept p s).ip = ipRegsOf (ipHeaderAt s p) := rfl
@[simp] theorem ipAccept_l4Tag (p : Nat) (s : State) : (ipAccept p s).l4Tag = s.l4Tag := rfl
@[simp] theorem ipAccept_l4Hlen (p : Nat) (s : State) : (ipAccept p s).l4Hlen = s.l4Hlen := rfl
@[simp] theorem ipAccept_tcp (p : Nat) (s : State) : (ipAccept p s).tcp = s.tcp := rfl
@[simp] theorem ipAccept_udp (p : Nat) (s : State) : (ipAccept p s).udp = s.udp := rfl
@[simp] theorem ipAccept_icmp (p : Nat) (s : State) : (ipAccept p s).icmp = s.icmp := rfl
@[simp] theorem ipAccept_payOff (p : Nat) (s : State) : (ipAccept p s).payOff = s.payOff := rfl
@[simp] theorem ipAccept_payLen (p : Nat) (s : State) : (ipAccept p s).payLen = s.payLen := rfl
@[simp] theorem ipAccept_chCount (p : Nat) (s : State) : (ipAccept p s).chCount = s.chCount := rfl
@[simp] theorem ipAccept_chunks (p : Nat) (s : State) : (ipAccept p s).chunks = s.chunks := rfl
@[simp] theorem ipAccept_frame (p : Nat) (s : State) : (ipAccept p s).frame = s.frame := rfl
@[simp] theorem ipAccept_pending (p : Nat) (s : State) : (ipAccept p s).pending = s.pending := rfl
@[simp] theorem ipAccept_fused (p : Nat) (s : State) : (ipAccept p s).fused = s.fused := rfl
@[simp] theorem ipAccept_reply (p : Nat) (s : State) : (ipAccept p s).reply = s.reply := rfl
@[simp] theorem ipAccept_taken (p : Nat) (s : State) : (ipAccept p s).taken = s.taken := rfl
@[simp] theorem ipAccept_takePos (p : Nat) (s : State) : (ipAccept p s).takePos = s.takePos := rfl
@[simp] theorem ipAccept_ret (p : Nat) (s : State) : (ipAccept p s).ret = s.ret := rfl
@[simp] theorem ipAccept_draws (p : Nat) (s : State) : (ipAccept p s).draws = s.draws := rfl

/-! ### emitChunk -/

@[simp] theorem emitChunk_cmd (s : State) : (emitChunk s).cmd = s.cmd := rfl
@[simp] theorem emitChunk_target (s : State) : (emitChunk s).target = s.target := rfl
@[simp] theorem emitChunk_flen (s : State) : (emitChunk s).flen = s.flen := rfl
@[simp] theorem emitChunk_phase (s : State) : (emitChunk s).phase = s.phase := rfl
@[simp] theorem emitChunk_fault (s : State) : (emitChunk s).fault = s.fault := rfl
@[simp] theorem emitChunk_faultOff (s : State) : (emitChunk s).faultOff = s.faultOff := rfl
@[simp] theorem emitChunk_ipValid (s : State) : (emitChunk s).ipValid = s.ipValid := rfl
@[simp] theorem emitChunk_l4Valid (s : State) : (emitChunk s).l4Valid = s.l4Valid := rfl
@[simp] theorem emitChunk_unsup (s : State) : (emitChunk s).unsup = s.unsup := rfl
@[simp] theorem emitChunk_matchValid (s : State) : (emitChunk s).matchValid = s.matchValid := rfl
@[simp] theorem emitChunk_matchBit (s : State) : (emitChunk s).matchBit = s.matchBit := rfl
@[simp] theorem emitChunk_off (s : State) : (emitChunk s).off = s.off + chunkSize s := rfl
@[simp] theorem emitChunk_ip (s : State) : (emitChunk s).ip = s.ip := rfl
@[simp] theorem emitChunk_l4Tag (s : State) : (emitChunk s).l4Tag = s.l4Tag := rfl
@[simp] theorem emitChunk_l4Hlen (s : State) : (emitChunk s).l4Hlen = s.l4Hlen := rfl
@[simp] theorem emitChunk_tcp (s : State) : (emitChunk s).tcp = s.tcp := rfl
@[simp] theorem emitChunk_udp (s : State) : (emitChunk s).udp = s.udp := rfl
@[simp] theorem emitChunk_icmp (s : State) : (emitChunk s).icmp = s.icmp := rfl
@[simp] theorem emitChunk_payOff (s : State) : (emitChunk s).payOff = s.payOff := rfl
@[simp] theorem emitChunk_payLen (s : State) : (emitChunk s).payLen = s.payLen := rfl
@[simp] theorem emitChunk_chCount (s : State) : (emitChunk s).chCount = s.chCount + 1 := rfl
@[simp] theorem emitChunk_chunks (s : State) : (emitChunk s).chunks = s.chunks ++ [nextChunk s] := rfl
@[simp] theorem emitChunk_frame (s : State) : (emitChunk s).frame = s.frame := rfl
@[simp] theorem emitChunk_pending (s : State) : (emitChunk s).pending = s.pending := rfl
@[simp] theorem emitChunk_fused (s : State) : (emitChunk s).fused = s.fused := rfl
@[simp] theorem emitChunk_reply (s : State) : (emitChunk s).reply = s.reply := rfl
@[simp] theorem emitChunk_taken (s : State) : (emitChunk s).taken = s.taken := rfl
@[simp] theorem emitChunk_takePos (s : State) : (emitChunk s).takePos = s.takePos := rfl
@[simp] theorem emitChunk_ret (s : State) : (emitChunk s).ret = s.ret := rfl
@[simp] theorem emitChunk_draws (s : State) : (emitChunk s).draws = s.draws := rfl

/-! ### acceptStart -/

@[simp] theorem acceptStart_cmd (s : State) : (acceptStart s).cmd = s.cmd := rfl
@[simp] theorem acceptStart_target (s : State) : (acceptStart s).target = s.target := rfl
@[simp] theorem acceptStart_flen (s : State) : (acceptStart s).flen = s.flen := rfl
@[simp] theorem acceptStart_phase (s : State) : (acceptStart s).phase = .ipdec := rfl
@[simp] theorem acceptStart_fault (s : State) : (acceptStart s).fault = .clear := rfl
@[simp] theorem acceptStart_faultOff (s : State) : (acceptStart s).faultOff = none := rfl
@[simp] theorem acceptStart_ipValid (s : State) : (acceptStart s).ipValid = false := rfl
@[simp] theorem acceptStart_l4Valid (s : State) : (acceptStart s).l4Valid = false := rfl
@[simp] theorem acceptStart_unsup (s : State) : (acceptStart s).unsup = false := rfl
@[simp] theorem acceptStart_matchValid (s : State) : (acceptStart s).matchValid = false := rfl
@[simp] theorem acceptStart_matchBit (s : State) : (acceptStart s).matchBit = none := rfl
@[simp] theorem acceptStart_off (s : State) : (acceptStart s).off = Config.l2Skip := rfl
@[simp] theorem acceptStart_ip (s : State) : (acceptStart s).ip = IpRegs.empty := rfl
@[simp] theorem acceptStart_l4Tag (s : State) : (acceptStart s).l4Tag = none := rfl
@[simp] theorem acceptStart_l4Hlen (s : State) : (acceptStart s).l4Hlen = none := rfl
@[simp] theorem acceptStart_tcp (s : State) : (acceptStart s).tcp = TcpRegs.empty := rfl
@[simp] theorem acceptStart_udp (s : State) : (acceptStart s).udp = UdpRegs.empty := rfl
@[simp] theorem acceptStart_icmp (s : State) : (acceptStart s).icmp = IcmpRegs.empty := rfl
@[simp] theorem acceptStart_payOff (s : State) : (acceptStart s).payOff = none := rfl
@[simp] theorem acceptStart_payLen (s : State) : (acceptStart s).payLen = none := rfl
@[simp] theorem acceptStart_chCount (s : State) : (acceptStart s).chCount = 0 := rfl
@[simp] theorem acceptStart_chunks (s : State) : (acceptStart s).chunks = [] := rfl
@[simp] theorem acceptStart_frame (s : State) : (acceptStart s).frame = s.frame := rfl
@[simp] theorem acceptStart_pending (s : State) : (acceptStart s).pending = s.pending := rfl
@[simp] theorem acceptStart_fused (s : State) : (acceptStart s).fused = s.fused := rfl
@[simp] theorem acceptStart_reply (s : State) : (acceptStart s).reply = s.reply := rfl
@[simp] theorem acceptStart_taken (s : State) : (acceptStart s).taken = s.taken := rfl
@[simp] theorem acceptStart_takePos (s : State) : (acceptStart s).takePos = 0 := rfl
@[simp] theorem acceptStart_ret (s : State) : (acceptStart s).ret = s.ret := rfl
@[simp] theorem acceptStart_draws (s : State) : (acceptStart s).draws = s.draws := rfl

/-! ### resetBlock -/

@[simp] theorem resetBlock_cmd (s : State) : (resetBlock s).cmd = 0 := rfl
@[simp] theorem resetBlock_target (s : State) : (resetBlock s).target = 0 := rfl
@[simp] theorem resetBlock_flen (s : State) : (resetBlock s).flen = 0 := rfl
@[simp] theorem resetBlock_phase (s : State) : (resetBlock s).phase = .idle := rfl
@[simp] theorem resetBlock_fault (s : State) : (resetBlock s).fault = .clear := rfl
@[simp] theorem resetBlock_faultOff (s : State) : (resetBlock s).faultOff = none := rfl
@[simp] theorem resetBlock_ipValid (s : State) : (resetBlock s).ipValid = false := rfl
@[simp] theorem resetBlock_l4Valid (s : State) : (resetBlock s).l4Valid = false := rfl
@[simp] theorem resetBlock_unsup (s : State) : (resetBlock s).unsup = false := rfl
@[simp] theorem resetBlock_matchValid (s : State) : (resetBlock s).matchValid = false := rfl
@[simp] theorem resetBlock_matchBit (s : State) : (resetBlock s).matchBit = none := rfl
@[simp] theorem resetBlock_off (s : State) : (resetBlock s).off = 0 := rfl
@[simp] theorem resetBlock_ip (s : State) : (resetBlock s).ip = IpRegs.empty := rfl
@[simp] theorem resetBlock_l4Tag (s : State) : (resetBlock s).l4Tag = none := rfl
@[simp] theorem resetBlock_l4Hlen (s : State) : (resetBlock s).l4Hlen = none := rfl
@[simp] theorem resetBlock_tcp (s : State) : (resetBlock s).tcp = TcpRegs.empty := rfl
@[simp] theorem resetBlock_udp (s : State) : (resetBlock s).udp = UdpRegs.empty := rfl
@[simp] theorem resetBlock_icmp (s : State) : (resetBlock s).icmp = IcmpRegs.empty := rfl
@[simp] theorem resetBlock_payOff (s : State) : (resetBlock s).payOff = none := rfl
@[simp] theorem resetBlock_payLen (s : State) : (resetBlock s).payLen = none := rfl
@[simp] theorem resetBlock_chCount (s : State) : (resetBlock s).chCount = 0 := rfl
@[simp] theorem resetBlock_chunks (s : State) : (resetBlock s).chunks = [] := rfl
@[simp] theorem resetBlock_frame (s : State) : (resetBlock s).frame = s.frame := rfl
@[simp] theorem resetBlock_pending (s : State) : (resetBlock s).pending = s.pending := rfl
@[simp] theorem resetBlock_fused (s : State) : (resetBlock s).fused = s.fused := rfl
@[simp] theorem resetBlock_reply (s : State) : (resetBlock s).reply = s.reply := rfl
@[simp] theorem resetBlock_taken (s : State) : (resetBlock s).taken = s.taken := rfl
@[simp] theorem resetBlock_takePos (s : State) : (resetBlock s).takePos = 0 := rfl
@[simp] theorem resetBlock_ret (s : State) : (resetBlock s).ret = s.ret := rfl
@[simp] theorem resetBlock_draws (s : State) : (resetBlock s).draws = s.draws := rfl

end Sys2Proof.Machine
end

