-- ==== Sys2Proof/Laws/Ops.lean ====
section
/-! SUPPORT. What each shared operation can do, said once: the checks, the decoders' steps, the payload step, START and the
host's writes. -/

namespace Sys2Proof.Machine

/-- The checks of IPDEC name an IP fault or none (R133). -/
theorem ipCheck_cases (s : State) (p : Nat) :
    ipCheck s p = some .truncIp ∨ ipCheck s p = some .malformedIp ∨
      (ipCheck s p = none ∧ 20 ≤ avail s p ∧ 5 ≤ (rdBits s p 3 0).toNat ∧ (rdBits s p 3 0).toNat * 4 ≤ avail s p) := by
  unfold ipCheck Config.ipHlenMin
  split
  · simp
  · split
    · simp
    · split
      · simp
      · exact .inr (.inr ⟨rfl, by omega, by omega, by omega⟩)

/-- The check of DEC_ICMP and DEC_UDP (R165, R168). -/
theorem fixedCheck_cases (s : State) (q n : Nat) :
    fixedCheck s q n = some .truncL4 ∨ (fixedCheck s q n = none ∧ n ≤ avail s q) := by
  unfold fixedCheck
  split
  · simp
  · exact .inr ⟨rfl, by omega⟩

/-- The checks of DEC_TCP (R172). -/
theorem tcpCheck_cases (s : State) (q : Nat) :
    tcpCheck s q = some .truncL4 ∨ tcpCheck s q = some .malformedL4 ∨
      (tcpCheck s q = none ∧ 20 ≤ avail s q ∧ 5 ≤ (rdBits s (q + 12) 7 4).toNat ∧
        (rdBits s (q + 12) 7 4).toNat * 4 ≤ avail s q) := by
  unfold tcpCheck Config.tcpHlenMin
  split
  · simp
  · split
    · simp
    · split
      · simp
      · exact .inr (.inr ⟨rfl, by omega, by omega, by omega⟩)

/-- The header's IHL is the field the checks read (R133, R134). -/
theorem ipHeaderAt_ihl (s : State) (p : Nat) : (ipHeaderAt s p).ihl = rdBits s p 3 0 := rfl

/-- The header's data offset is the field the checks read (R172, R173). -/
theorem tcpHeaderAt_doff (s : State) (q : Nat) : (tcpHeaderAt s q).doff = rdBits s (q + 12) 7 4 := rfl

/-- IPDEC either records an IP fault and is done, or accepts the header (R133 to R136). -/
theorem ipdecStep_cases (s : State) :
    (∃ c, ipCheck s s.off = some c ∧ ipdecStep s = raiseIp c s.off s) ∨
      (ipCheck s s.off = none ∧ ipdecStep s = ipAccept s.off s) := by
  unfold ipdecStep
  cases h : ipCheck s s.off with
  | none => exact .inr ⟨rfl, rfl⟩
  | some c => exact .inl ⟨c, rfl, rfl⟩

/-- FILTER either records an IP fault or gives its answer (R220). -/
theorem filterStep_cases (s : State) :
    (∃ c, ipCheck s s.off = some c ∧ filterStep s = raiseIp c s.off s) ∨
      (ipCheck s s.off = none ∧
        filterStep s = { s with matchBit := some (matchFlag s s.off), matchValid := true, phase := .done }) := by
  unfold filterStep
  cases h : ipCheck s s.off with
  | none => exact .inr ⟨rfl, rfl⟩
  | some c => exact .inl ⟨c, rfl, rfl⟩

/-- DEC_ICMP either records a transport fault or writes its variant (R164, R165). -/
theorem icmpDecode_cases (s : State) :
    icmpDecode s = raiseL4 .truncL4 s.off s ∧ fixedCheck s s.off 8 = some .truncL4 ∨
      8 ≤ avail s s.off ∧ icmpDecode s = consumeL4 8 { s with icmp := icmpRegsOf (decodeIcmp (viewAt s s.off)) } := by
  unfold icmpDecode Config.icmpHlen
  rcases fixedCheck_cases s s.off 8 with h | ⟨h, hn⟩ <;> simp [h]
  exact hn

/-- DEC_UDP either records a transport fault or writes its variant (R164, R168). -/
theorem udpDecode_cases (s : State) :
    udpDecode s = raiseL4 .truncL4 s.off s ∧ fixedCheck s s.off 8 = some .truncL4 ∨
      8 ≤ avail s s.off ∧ udpDecode s = consumeL4 8 { s with udp := udpRegsOf (decodeUdp (viewAt s s.off)) } := by
  unfold udpDecode Config.udpHlen
  rcases fixedCheck_cases s s.off 8 with h | ⟨h, hn⟩ <;> simp [h]
  exact hn

/-- DEC_TCP either records a transport fault or writes its variant (R164, R172, R173). -/
theorem tcpDecode_cases (s : State) :
    (∃ c, tcpCheck s s.off = some c ∧ (c = .truncL4 ∨ c = .malformedL4) ∧ tcpDecode s = raiseL4 c s.off s) ∨
      (5 ≤ (tcpHeaderAt s s.off).doff.toNat ∧ (tcpHeaderAt s s.off).doff.toNat * 4 ≤ avail s s.off ∧
        tcpDecode s = consumeL4 (wordsToBytes (tcpHeaderAt s s.off).doff)
          { s with tcp := tcpRegsOf (tcpHeaderAt s s.off) }) := by
  unfold tcpDecode
  rcases tcpCheck_cases s s.off with h | h | ⟨h, _, h5, hn⟩
  · exact .inl ⟨.truncL4, h, .inl rfl, by simp [h]⟩
  · exact .inl ⟨.malformedL4, h, .inr rfl, by simp [h]⟩
  · exact .inr ⟨h5, hn, by simp [h]⟩

/-- DEMUX either runs DEC_UNKNOWN or leaves a decoder to the next step (R160, R203). -/
theorem demuxStep_cases (p : Byte) (s : State) :
    (tagOf p = .unknown ∧ demuxStep p s = unknownStep { s with l4Tag := some .unknown }) ∨
      (tagOf p ≠ .unknown ∧ demuxStep p s = { s with l4Tag := some (tagOf p), phase := .l4dec }) := by
  unfold demuxStep
  by_cases h : tagOf p = .unknown <;> simp [h]

/-- DEMUX never stops: it selects by IP_PROTO, or by a free value where IP_PROTO holds none (R160, log 16). -/
theorem execDemux_cases (s : State) :
    (∃ p, s.ip.proto = some p ∧ execDemux s = .next (demuxStep p s)) ∨
      (s.ip.proto = none ∧ execDemux s = .next (demuxStep (Config.freeProto s.draws) (draw s))) := by
  unfold execDemux
  cases h : s.ip.proto with
  | none => exact .inr ⟨rfl, rfl⟩
  | some p => exact .inl ⟨p, rfl, rfl⟩

/-- Every tag has a code that gives it back (R112). -/
@[simp] theorem L4Tag.ofCode_code (g : L4Tag) : L4Tag.ofCode g.code = g := by cases g <;> rfl

/-- The payload step finishes or emits one chunk of 1 to 16 bytes (R205). -/
theorem payStep_cases (s : State) :
    (s.flen ≤ s.off ∧ payStep s = { s with phase := .done }) ∨
      (s.off < s.flen ∧ payStep s = emitChunk s ∧ 1 ≤ chunkSize s ∧ chunkSize s ≤ 16 ∧ s.off + chunkSize s ≤ s.flen) := by
  unfold payStep
  by_cases h : s.flen ≤ s.off
  · simp [h]
  · refine .inr ⟨by omega, by simp [h], ?_⟩
    unfold chunkSize Config.chunk
    omega

/-- START does nothing, or is accepted (R21, R39, R270). -/
theorem writeStart_cases (v : BitVec 1) (s : State) :
    writeStart v s = s ∨ (busy s = false ∧ v = 1 ∧ writeStart v s = acceptStart s) := by
  unfold writeStart
  cases busy s
  · by_cases h : v = 1
    · exact .inr ⟨rfl, h, by simp [h]⟩
    · exact .inl (by simp only [Bool.false_eq_true, if_false, if_neg h])
  · exact .inl rfl

/-- Taking a chunk moves at most one chunk into the record of what was taken (R272). -/
theorem takeChunk_cases (s : State) :
    takeChunk s = s ∨
      (∃ c, s.chunks[s.takePos]? = some c ∧ takeChunk s = { s with taken := s.taken ++ [c], takePos := s.takePos + 1 }) := by
  unfold takeChunk
  cases h : s.chunks[s.takePos]? with
  | none => exact .inl rfl
  | some c => exact .inr ⟨c, rfl, rfl⟩

/-- The host's store is refused, or stores the bytes and changes nothing else (R263, R271). -/
theorem storeFrame_cases (a : Nat) (bs : List Byte) (s : State) :
    storeFrame a bs s = .refused .frameWriteWhileBusy ∨ storeFrame a bs s = .refused .frameTooLong ∨
      (busy s = false ∧ a + bs.length < 2 ^ Config.lenW ∧
        storeFrame a bs s = .next { s with frame := Memory.storeAll s.frame a bs }) := by
  unfold storeFrame
  cases hb : busy s
  · by_cases h : a + bs.length < 2 ^ Config.lenW <;> simp [h]
  · simp

/-- A read primitive returns its value, or faults outside the frame (R62). -/
theorem readSpan_cases (a n : Nat) (r : Ret) (s : State) :
    (a + n ≤ s.flen ∧ readSpan a n r s = .next (setRet r s)) ∨
      (s.flen < a + n ∧ readSpan a n r s = .fault (.outOfFrame a n)) := by
  unfold readSpan inFrame
  by_cases h : a + n ≤ s.flen <;> simp [h]
  omega

/-- Lengths below 256 are always presentable: LEN_W is at least 8 (R8). -/
theorem lenW_fits (n : Nat) (h : n < 256) : n < 2 ^ Config.lenW := by
  have : 2 ^ 8 ≤ 2 ^ Config.lenW := Nat.pow_le_pow_right (by decide) (by simp [Config.lenW])
  omega

end Sys2Proof.Machine
end

