-- ==== Sys2Proof/Laws/Step.lean ====
section
/-! SUPPORT. What one step can do, said once: the move it makes, the row the parser fetches, and what each operation's exec
answers. -/

namespace Sys2Proof.Machine

/-- A call of a function or primitive changes the record of what it returned and nothing else (R71, R150, R190). -/
theorem exec_function_cases (i : Instr) (s t : State) (hf : i.isFunction = true) (h : exec i s = .next t) :
    ∃ r, t = setRet r s := by
  cases i <;> simp only [Instr.isFunction, Bool.false_eq_true] at hf <;>
    simp only [exec, execLookup, execDumpline, execRd8, execRd16, execRd32, execRdbits, execSlice] at h
  case lookup n => exact ⟨_, by simpa using h.symm⟩
  case dumpline d =>
    split at h
    · exact ⟨_, by simpa using h.symm⟩
    · simp at h
  case rd8 a => rcases readSpan_cases a 1 (.byte (rd8 s a)) s with ⟨_, e⟩ | ⟨_, e⟩ <;> simp [e] at h; exact ⟨_, h.symm⟩
  case rd16 a => rcases readSpan_cases a 2 (.half (rd16 s a)) s with ⟨_, e⟩ | ⟨_, e⟩ <;> simp [e] at h; exact ⟨_, h.symm⟩
  case rd32 a => rcases readSpan_cases a 4 (.word (rd32 s a)) s with ⟨_, e⟩ | ⟨_, e⟩ <;> simp [e] at h; exact ⟨_, h.symm⟩
  case rdbits a hi lo =>
    split at h
    · rcases readSpan_cases a 1 (.bits (hi - lo + 1) (rdBits s a hi lo).toNat) s with ⟨_, e⟩ | ⟨_, e⟩ <;>
        simp [e] at h
      exact ⟨_, h.symm⟩
    · simp at h
  case slice a n =>
    split at h
    · rcases readSpan_cases a n (.bytes (sliceBytes s a n)) s with ⟨_, e⟩ | ⟨_, e⟩ <;> simp [e] at h
      exact ⟨_, h.symm⟩
    · simp at h

/-- The row a tag selects names the operation of that tag (R201, R204). -/
theorem tagSelector_decodes (g : L4Tag) (r : IpRegs) : ∃ i, decodeSelector (tagSelector g r) = .ok i := by
  unfold tagSelector unknownRow
  split
  · exact ⟨_, rfl⟩
  · exact ⟨_, rfl⟩
  · exact ⟨_, rfl⟩
  · split
    · split_ifs <;> exact ⟨_, rfl⟩
    · exact ⟨_, rfl⟩

/-- Every row that the parser fetches names an operation (R201). -/
theorem fetch_row_decodes (s : State) (v : Selector) (h : fetch s = .row v) : ∃ i, decodeSelector v = .ok i := by
  unfold fetch at h
  cases hp : s.phase <;> simp only [hp] at h
  case idle => simp at h
  case done => simp at h
  case ipdec => split at h <;> cases h; exact ⟨_, rfl⟩; exact ⟨.ipdec, by decide⟩
  case demux => cases h; exact ⟨.demux, by decide⟩
  case payload => cases h; exact ⟨.paychunk, by decide⟩
  case l4dec =>
    unfold fetchDecoder at h
    split at h
    · cases h; exact tagSelector_decodes _ _
    · simp at h

/-- A row that rests on a free value is fetched in phase L4DEC without a tag only, and it is the row a tag selects (log 16). -/
theorem fetch_drawn (s : State) (v : Selector) (h : fetch s = .drawn v) :
    s.phase = .l4dec ∧ s.l4Tag = none ∧ v = tagSelector (L4Tag.ofCode (Config.freeTag s.draws)) s.ip := by
  unfold fetch at h
  cases hp : s.phase <;> simp only [hp] at h
  case idle => simp at h
  case done => simp at h
  case ipdec => split at h <;> simp at h
  case demux => simp at h
  case payload => simp at h
  case l4dec =>
    unfold fetchDecoder at h
    split at h
    · simp at h
    · cases h; exact ⟨rfl, ‹_›, rfl⟩

/-- No row the parser fetches is a function. -/
theorem decodeSelector_not_function (v : Selector) (i : Instr) (h : decodeSelector v = .ok i) : i.isFunction = false := by
  cases v with
  | cmd v => simp only [decodeSelector, decodeCommand] at h; split at h <;> cases h <;> rfl
  | phase v =>
    simp only [decodeSelector, decodePhase] at h
    split_ifs at h <;> cases h <;> rfl
  | proto v =>
    simp only [decodeSelector, decodeProto] at h
    split_ifs at h <;> cases h <;> rfl

/-- A selector value of an operation runs it. -/
theorem runSelected_ok (v : Selector) (i : Instr) (s : State) (h : decodeSelector v = .ok i) : runSelected v s = exec i s := by
  simp [runSelected, h]

/-- The parser's move runs the operation it fetches, after a free value it drew where L4_TAG holds none, or finds nothing to do
(R201). -/
theorem parserMove_cases (s t : State) (h : parserMove s = .next t) :
    (fetch s = .nothing ∧ t = s) ∨
      (∃ v i, fetch s = .row v ∧ decodeSelector v = .ok i ∧ i.isFunction = false ∧ exec i s = .next t) ∨
      (∃ v i, fetch s = .drawn v ∧ decodeSelector v = .ok i ∧ i.isFunction = false ∧ exec i (draw s) = .next t) := by
  unfold parserMove at h
  cases hf : fetch s with
  | nothing => simp [hf] at h; exact .inl ⟨rfl, h.symm⟩
  | row v =>
    obtain ⟨i, hi⟩ := fetch_row_decodes s v hf
    simp only [hf, runSelected_ok v i _ hi] at h
    exact .inr (.inl ⟨v, i, rfl, hi, decodeSelector_not_function v i hi, h⟩)
  | drawn v =>
    obtain ⟨_, _, hv⟩ := fetch_drawn s v hf
    obtain ⟨i, hi⟩ := tagSelector_decodes (L4Tag.ofCode (Config.freeTag s.draws)) s.ip
    rw [← hv] at hi
    simp only [hf, runSelected_ok v i _ hi] at h
    exact .inr (.inr ⟨v, i, rfl, hi, decodeSelector_not_function v i hi, h⟩)

/-- One step is the parser's move, a host move or a call (R14). -/
theorem step_cases (s t : State) (h : step s = .next t) :
    (s.pending = [] ∧ parserMove s = .next t) ∨
      (∃ rest, s.pending = .parser :: rest ∧ parserMove { s with pending := rest } = .next t) ∨
      (∃ m rest, s.pending = .host m :: rest ∧ hostMove m { s with pending := rest } = .next t) ∨
      (∃ i rest, s.pending = .call i :: rest ∧ i.isFunction = true ∧ exec i { s with pending := rest } = .next t) := by
  unfold step at h
  split at h
  · exact .inl ⟨‹_›, h⟩
  · exact .inr (.inl ⟨_, ‹_›, h⟩)
  · exact .inr (.inr (.inl ⟨_, _, ‹_›, h⟩))
  · rename_i i rest hp
    unfold callMove at h
    split at h
    · exact .inr (.inr (.inr ⟨_, _, hp, ‹_›, h⟩))
    · simp at h

/-- What a host move that is carried out does (R212). -/
theorem hostMove_cases (m : HostMove) (s t : State) (h : hostMove m s = .next t) :
    (∃ v, m = .writeCmd v ∧ t = writeCmd v s) ∨ (∃ v, m = .writeTarget v ∧ t = writeTarget v s) ∨
      (∃ v, m = .writeFlen v ∧ v < 2 ^ Config.lenW ∧ t = writeFlen v s) ∨
      (∃ v, m = .writeStart v ∧ t = writeStart v s) ∨
      (∃ a bs, (m = .writeFrame a (bs.headD 0) ∧ bs.length = 1 ∨ m = .loadFrame bs ∧ a = 0) ∧ busy s = false ∧
        t = { s with frame := Memory.storeAll s.frame a bs }) ∨
      (∃ n, m = .read n ∧ t = { s with reply := readReg s n }) ∨
      (m = .take ∧ t = takeChunk s) ∨ (m = .reset ∧ t = resetBlock s) := by
  cases m with
  | writeCmd v => simp [hostMove] at h; simp [h]
  | writeTarget v => simp [hostMove] at h; simp [h]
  | writeFlen v =>
    simp only [hostMove] at h
    split at h
    · simp at h; simp [*]
    · simp at h
  | writeStart v => simp [hostMove] at h; simp [h]
  | writeFrame a b =>
    simp only [hostMove] at h
    rcases storeFrame_cases a [b] s with e | e | ⟨hb, _, e⟩ <;> simp [e] at h
    exact .inr (.inr (.inr (.inr (.inl ⟨a, [b], .inl ⟨rfl, rfl⟩, hb, h.symm⟩))))
  | loadFrame bs =>
    simp only [hostMove] at h
    rcases storeFrame_cases 0 bs s with e | e | ⟨hb, _, e⟩ <;> simp [e] at h
    exact .inr (.inr (.inr (.inr (.inl ⟨0, bs, .inr ⟨rfl, rfl⟩, hb, h.symm⟩))))
  | read n => simp [hostMove] at h; simp [h]
  | take => simp [hostMove] at h; simp [h]
  | reset => simp [hostMove] at h; simp [h]

end Sys2Proof.Machine
end

