-- ==== Sys2Proof/Laws/Exec.lean ====
section
/-! SUPPORT. What one operation can do, said once for all twenty: a relation kept by every small step is kept by exec; and
the payload phase's own induction. -/

namespace Sys2Proof.Machine

/-- What every payload step that is taken keeps, the payload phase keeps (R205). -/
theorem payLoop_keeps (P : State → Prop) (hP : ∀ s, P s → s.phase ≠ .done → P (payStep s)) (k : Nat) (s : State)
    (h : P s) : P (payLoop k s) := by
  induction k generalizing s with
  | zero => exact h
  | succ k ih =>
    simp only [payLoop]
    split
    · exact h
    · exact ih _ (hP _ h ‹_›)

/-- More steps than bytes left end the payload phase (R201, R205). -/
theorem payLoop_done (k : Nat) (s : State) (h : s.flen - s.off < k) : (payLoop k s).phase = .done := by
  induction k generalizing s with
  | zero => omega
  | succ k ih =>
    simp only [payLoop]
    split
    · assumption
    · rcases payStep_cases s with ⟨_, e⟩ | ⟨h1, e, h2, h3, h4⟩
      · rw [e]
        cases k <;> simp [payLoop]
      · refine ih _ ?_
        rw [e]
        simp
        omega

/-- A reflexive transitive relation that every small step of the parser keeps: what each instruction's frame and every "never
changes" claim reduces to. -/
structure KeptBySteps (R : State → State → Prop) : Prop where
  refl : ∀ s, R s s
  trans : ∀ a b c, R a b → R b c → R a c
  raiseIp : ∀ c p s, c ≠ .clear → R s (raiseIp c p s)
  raiseL4 : ∀ c q s, c ≠ .clear → R s (raiseL4 c q s)
  accept : ∀ s, R s (ipAccept s.off s)
  enter : ∀ s, R s (enterPayload s)
  note : ∀ s, R s (noteUnsupported s)
  tag : ∀ s t, R s { s with l4Tag := some t }
  select : ∀ s t, R s { s with l4Tag := some t, phase := .l4dec }
  consume : ∀ s n, R s (consumeL4 n s)
  icmp : ∀ s r, R s { s with icmp := r }
  udp : ∀ s r, R s { s with udp := r }
  tcp : ∀ s r, R s { s with tcp := r }
  finish : ∀ s, R s { s with phase := .done }
  emit : ∀ s, R s (emitChunk s)

variable {R : State → State → Prop}

/-- The checks of IPDEC record a fault, never "clear" (R133). -/
theorem ipCheck_not_clear (s : State) (p : Nat) (c : FaultCode) (h : ipCheck s p = some c) : c ≠ .clear := by
  rintro rfl
  rcases ipCheck_cases s p with e | e | ⟨e, _⟩ <;> simp [h] at e

/-- IPDEC keeps it. -/
theorem ipdecStep_keeps (k : KeptBySteps R) (s : State) : R s (ipdecStep s) := by
  rcases ipdecStep_cases s with ⟨c, hc, e⟩ | ⟨_, e⟩ <;> rw [e]
  · exact k.raiseIp _ _ _ (ipCheck_not_clear _ _ _ hc)
  · exact k.accept s

/-- DEC_UNKNOWN and the payload phase's entry keep it. -/
theorem unknownStep_keeps (k : KeptBySteps R) (s : State) : R s (unknownStep s) := k.trans _ _ _ (k.note s) (k.enter _)

/-- DEMUX keeps it. -/
theorem demuxStep_keeps (k : KeptBySteps R) (p : Byte) (s : State) : R s (demuxStep p s) := by
  rcases demuxStep_cases p s with ⟨_, e⟩ | ⟨_, e⟩ <;> rw [e]
  · exact k.trans _ _ _ (k.tag s _) (unknownStep_keeps k _)
  · exact k.select _ _

/-- Every transport decoder keeps it. -/
theorem decoderStep_keeps (k : KeptBySteps R) (t : L4Tag) (s : State) : R s (decoderStep t s) := by
  cases t with
  | unknown => exact unknownStep_keeps k s
  | icmp =>
    refine k.trans _ _ _ ?_ (k.enter _)
    rcases icmpDecode_cases s with ⟨e, _⟩ | ⟨_, e⟩ <;> rw [e]
    · exact k.raiseL4 _ _ _ (by decide)
    · exact k.trans _ _ _ (k.icmp _ _) (k.consume _ _)
  | udp =>
    refine k.trans _ _ _ ?_ (k.enter _)
    rcases udpDecode_cases s with ⟨e, _⟩ | ⟨_, e⟩ <;> rw [e]
    · exact k.raiseL4 _ _ _ (by decide)
    · exact k.trans _ _ _ (k.udp _ _) (k.consume _ _)
  | tcp =>
    refine k.trans _ _ _ ?_ (k.enter _)
    rcases tcpDecode_cases s with ⟨c, _, hc, e⟩ | ⟨_, _, e⟩ <;> rw [e]
    · exact k.raiseL4 _ _ _ (by rcases hc with rfl | rfl <;> decide)
    · exact k.trans _ _ _ (k.tcp _ _) (k.consume _ _)

/-- PAYCHUNK keeps it. -/
theorem payStep_keeps (k : KeptBySteps R) (s : State) : R s (payStep s) := by
  rcases payStep_cases s with ⟨_, e⟩ | ⟨_, e, _⟩ <;> rw [e]
  · exact k.finish s
  · exact k.emit s

/-- The payload phase keeps it. -/
theorem payLoop_keeps_rel (k : KeptBySteps R) (n : Nat) (s : State) : R s (payLoop n s) :=
  payLoop_keeps (R s) (fun x hx _ => k.trans _ _ _ hx (payStep_keeps k x)) n s (k.refl s)

/-- PARSE keeps it. -/
theorem parseRun_keeps (k : KeptBySteps R) (s : State) : R s (parseRun s) := by
  have hip := ipdecStep_keeps k s
  unfold ipdecStep at hip
  unfold parseRun
  cases hc : ipCheck s s.off with
  | some c => simpa only [hc] using hip
  | none =>
    simp only [hc] at hip ⊢
    refine k.trans _ _ _ hip (k.trans _ _ _ ?_ (payLoop_keeps_rel k _ _))
    unfold transportSteps
    by_cases hu : tagOf (ipHeaderAt s s.off).proto = .unknown
    · rw [if_pos hu]
      exact demuxStep_keeps k _ _
    · rw [if_neg hu]
      exact k.trans _ _ _ (demuxStep_keeps k _ _) (decoderStep_keeps k _ _)

/-- Every operation keeps it, if a function's answer, a drawn free value and the match registers' write do. -/
theorem exec_keeps (k : KeptBySteps R) (hret : ∀ s r, R s (setRet r s)) (hdraw : ∀ s, R s (draw s))
    (hmatch : ∀ s b, R s { s with matchBit := some b, matchValid := true, phase := .done }) (i : Instr) (s t : State)
    (h : exec i s = .next t) : R s t := by
  by_cases hf : i.isFunction = true
  · obtain ⟨r, rfl⟩ := exec_function_cases i s t hf h
    exact hret _ _
  cases i <;> simp [Instr.isFunction] at hf
  case parse => cases h; exact parseRun_keeps k s
  case filter =>
    cases h
    rcases filterStep_cases s with ⟨c, hc, e⟩ | ⟨_, e⟩ <;> rw [e]
    · exact k.raiseIp _ _ _ (ipCheck_not_clear _ _ _ hc)
    · exact hmatch _ _
  case ipdec => cases h; exact ipdecStep_keeps k s
  case demux =>
    rcases execDemux_cases s with ⟨p, _, e⟩ | ⟨_, e⟩ <;> rw [exec, e] at h <;> cases h
    · exact demuxStep_keeps k _ _
    · exact k.trans _ _ _ (hdraw s) (demuxStep_keeps k _ _)
  case paychunk => cases h; exact payStep_keeps k s
  case decIcmp => cases h; exact decoderStep_keeps k .icmp s
  case decUdp => cases h; exact decoderStep_keeps k .udp s
  case decTcp => cases h; exact decoderStep_keeps k .tcp s
  all_goals cases h; exact unknownStep_keeps k s

end Sys2Proof.Machine
end

