-- ==== Sys2Proof/Laws/PerInstr.lean ====
section
/-! SUPPORT. A statement about every operation as syntax, one lemma a constructor: a row of the table has a selector value
exactly when it is not a function or primitive (opcode_table.json "level" and "selector"). -/

namespace Sys2Proof.Laws.Selected

def Statement (i : Instr) : Prop := (encode i).isSome = !i.isFunction

theorem parse : Statement .parse := rfl
theorem filter : Statement .filter := rfl
theorem ipdec : Statement .ipdec := rfl
theorem lookup (n : Byte) : Statement (.lookup n) := rfl
theorem demux : Statement .demux := rfl
theorem decIcmp : Statement .decIcmp := rfl
theorem decUnknownIgmp : Statement .decUnknownIgmp := rfl
theorem decTcp : Statement .decTcp := rfl
theorem decUdp : Statement .decUdp := rfl
theorem decUnknownP41 : Statement .decUnknownP41 := rfl
theorem decUnknownOspf : Statement .decUnknownOspf := rfl
theorem decUnknownSctp : Statement .decUnknownSctp := rfl
theorem decUnknown (proto : Byte) : Statement (.decUnknown proto) := rfl
theorem paychunk : Statement .paychunk := rfl
theorem dumpline (data : List Byte) : Statement (.dumpline data) := rfl
theorem rd8 (a : Nat) : Statement (.rd8 a) := rfl
theorem rd16 (a : Nat) : Statement (.rd16 a) := rfl
theorem rd32 (a : Nat) : Statement (.rd32 a) := rfl
theorem rdbits (a hi lo : Nat) : Statement (.rdbits a hi lo) := rfl
theorem slice (a n : Nat) : Statement (.slice a n) := rfl

end Sys2Proof.Laws.Selected
end

