-- ==== Sys2Proof/Tests/Slice0.lean ====
section
/-! SUPPORT. The model's own tests. Expected values are the spec's: spec/95_test_vectors.md (V<n>, P<n>, T<n>), the worked
examples R141, R166, R170, R175, and the encoding tables. Then one witness for the hypotheses of each statement. -/

namespace Sys2Proof.Tests

open Sys2Proof Sys2Proof.Machine

/-! ### Helpers -/

/-- The link-layer header of spec/95_test_vectors.md; never read. -/
def eth : List Byte := [0x00, 0x11, 0x22, 0x33, 0x44, 0x55, 0x66, 0x77, 0x88, 0x99, 0xaa, 0xbb, 0x08, 0x00]

/-- An IP header: P1's, with the first byte, the second, the flags word and the protocol byte given. -/
def ipHdr (b0 b1 f0 f1 proto : Byte) : List Byte :=
  [b0, b1, 0x00, 0x2d, 0x1c, 0x46, f0, f1, 0x40, proto, 0x9c, 0x6c, 0xc0, 0xa8, 0x00, 0x01, 0xc0, 0xa8, 0x00, 0xc7]

/-- P1's IP header (R141). -/
def p1Ip : List Byte := ipHdr 0x45 0x00 0x40 0x00 0x06

/-- P1's TCP header with bytes 12 and 13 given. -/
def tcpHdr (b12 b13 : Byte) : List Byte :=
  [0x01, 0xbb, 0xc8, 0x22, 0x00, 0x00, 0x10, 0x00, 0x00, 0x00, 0x20, 0x00, b12, b13, 0xfa, 0xf0, 0xab, 0xcd, 0x00, 0x00]

/-- The UDP header of R170. -/
def udpHdr : List Byte := [0x00, 0x35, 0xc0, 0x01, 0x00, 0x29, 0x00, 0x00]

/-- The ICMP header of R166. -/
def icmpHdr : List Byte := [0x08, 0x00, 0xf7, 0xff, 0x12, 0x34, 0x00, 0x01]

/-- "Hello". -/
def hello : List Byte := [0x48, 0x65, 0x6c, 0x6c, 0x6f]

/-- The block at reset with a frame presented. -/
def presented (bytes : List Byte) : State :=
  { State.reset with frame := Memory.storeAll [] 0 bytes, flen := bytes.length }

/-- A state whose cursor stands at the first of these bytes. -/
def at0 (bytes : List Byte) : State := presented bytes

/-- After an accepted START on this frame. -/
def started (bytes : List Byte) : State := acceptStart (presented bytes)

/-- A field of the next state. -/
def field {α : Type} (o : Host.Outcome State Fault Refusal) (f : State → α) : Option α :=
  match o with
  | .next t => some (f t)
  | .fault _ => none
  | .refused _ => none

/-- Text as character codes. -/
def codes (t : String) : List Byte := t.toList.map fun c => BitVec.ofNat 8 c.toNat

/-! ### Well-formedness: one ill-formed term for each check -/

theorem test_wf_rdbits_reversed : (Instr.rdbits 0 3 4).wf = false := by decide
theorem test_wf_rdbits_above_seven : (Instr.rdbits 0 8 0).wf = false := by decide
theorem test_wf_slice_empty : (Instr.slice 0 0).wf = false := by decide
theorem test_wf_slice_long : (Instr.slice 0 17).wf = false := by decide
theorem test_wf_dumpline_long : (Instr.dumpline (List.replicate 17 0x41)).wf = false := by decide
theorem test_wf_default_row_named : (Instr.decUnknown 89).wf = false := by decide
theorem test_wf_accepts : (Instr.rdbits 0 7 0).wf = true ∧ (Instr.slice 0 16).wf = true ∧
    (Instr.dumpline (List.replicate 16 0x41)).wf = true ∧ (Instr.decUnknown 255).wf = true := by decide

/-! ### Decoding: selector values of opcode_table.json, header bytes written out from R91 to R96 -/

theorem test_decode_commands : decodeSelector (.cmd 0b0) = .ok .parse ∧ decodeSelector (.cmd 0b1) = .ok .filter :=
  ⟨rfl, rfl⟩
theorem test_decode_phases : decodeSelector (.phase 0b001) = .ok .ipdec ∧ decodeSelector (.phase 0b010) = .ok .demux ∧
    decodeSelector (.phase 0b100) = .ok .paychunk := ⟨rfl, rfl, rfl⟩
theorem test_decode_no_row : decodeSelector (.phase 0b000) = .error .noStep ∧
    decodeSelector (.phase 0b101) = .error .noStep ∧ decodeSelector (.phase 0b011) = .error .decoderByTag ∧
    decodeSelector (.phase 0b111) = .error .phaseNeverTaken := ⟨rfl, rfl, rfl, rfl⟩
theorem test_decode_protocols : decodeSelector (.proto 0b00000001) = .ok .decIcmp ∧
    decodeSelector (.proto 0b00000010) = .ok .decUnknownIgmp ∧ decodeSelector (.proto 0b00000110) = .ok .decTcp ∧
    decodeSelector (.proto 0b00010001) = .ok .decUdp ∧ decodeSelector (.proto 0b00101001) = .ok .decUnknownP41 ∧
    decodeSelector (.proto 0b01011001) = .ok .decUnknownOspf ∧
    decodeSelector (.proto 0b10000100) = .ok .decUnknownSctp := ⟨rfl, rfl, rfl, rfl, rfl, rfl, rfl⟩
theorem test_decode_default : decodeSelector (.proto 0b00000000) = .ok (.decUnknown 0) ∧
    decodeSelector (.proto 0b11111111) = .ok (.decUnknown 255) ∧
    decodeSelector (.proto 0b00010010) = .ok (.decUnknown 18) := ⟨rfl, rfl, rfl⟩
theorem test_table_words : decodeTableWord 1 1 = some .filter ∧ decodeTableWord 3 1 = some .ipdec ∧
    decodeTableWord 8 6 = some .decTcp ∧ decodeTableWord 8 4 = some .paychunk ∧ decodeTableWord 8 0 = some .parse ∧
    decodeTableWord 8 256 = none ∧ decodeTableWord 16 6 = none := by decide
/-- R141. -/
theorem test_decode_ipv4 : decodeIpv4 (viewOf p1Ip) =
    ⟨4, 5, 0, 0, 45, 0x1c46, 0, 1, 0, 0, 64, 6, 0x9c6c, 0xc0a80001, 0xc0a800c7⟩ := by decide
/-- V19d: every bit of bytes 0, 1, 6 and 7 at work. -/
theorem test_decode_ipv4_extremes : decodeIpv4 (viewOf (ipHdr 0x65 0xb9 0xff 0xff 0xfd)) =
    ⟨6, 5, 46, 1, 45, 0x1c46, 1, 1, 1, 0x1fff, 64, 0xfd, 0x9c6c, 0xc0a80001, 0xc0a800c7⟩ := by decide
/-- P4: flags word a1 23. -/
theorem test_decode_ipv4_flags : (decodeIpv4 (viewOf (ipHdr 0x45 0xb9 0xa1 0x23 0x59))).rsv = 1 ∧
    (decodeIpv4 (viewOf (ipHdr 0x45 0xb9 0xa1 0x23 0x59))).df = 0 ∧
    (decodeIpv4 (viewOf (ipHdr 0x45 0xb9 0xa1 0x23 0x59))).mf = 1 ∧
    (decodeIpv4 (viewOf (ipHdr 0x45 0xb9 0xa1 0x23 0x59))).fragoff = 0x0123 := by decide
/-- R166. -/
theorem test_decode_icmp : decodeIcmp (viewOf icmpHdr) = ⟨8, 0, 0xf7ff, 0x12340001⟩ := by decide
/-- R170. -/
theorem test_decode_udp : decodeUdp (viewOf udpHdr) = ⟨53, 49153, 41, 0⟩ := by decide
/-- P1. -/
theorem test_decode_tcp : decodeTcp (viewOf (tcpHdr 0x50 0x18)) =
    ⟨443, 51234, 4096, 8192, 5, 0x18, 0xfaf0, 0xabcd, 0⟩ := by decide
/-- V49: the six unlisted bits are discarded. -/
theorem test_decode_tcp_unlisted_bits : (decodeTcp (viewOf (tcpHdr 0x5f 0xd2))).doff = 5 ∧
    (decodeTcp (viewOf (tcpHdr 0x5f 0xd2))).flags = 0x12 := by decide
theorem test_encode_headers : encodeIpv4 (decodeIpv4 (viewOf p1Ip)) = p1Ip ∧
    encodeTcp 0xf 0b11 (decodeTcp (viewOf (tcpHdr 0x5f 0xd2))) = tcpHdr 0x5f 0xd2 := by decide

/-! ### Read primitives (V1 to V12) -/

/-- The six bytes of the V vectors. -/
def six : State := presented [0x12, 0x34, 0x56, 0x78, 0x9a, 0xbc]

theorem test_rd8 : field (exec (.rd8 0) six) State.ret = some (.byte 0x12) := by decide
theorem test_rd16_odd : field (exec (.rd16 1) six) State.ret = some (.half 0x3456) := by decide
theorem test_rd32_last : field (exec (.rd32 2) six) State.ret = some (.word 0x56789abc) := by decide
theorem test_rd32_outside : exec (.rd32 3) six = .fault (.outOfFrame 3 4) := rfl
theorem test_rdbits_high : field (exec (.rdbits 0 7 4) six) State.ret = some (.bits 4 0x1) := by decide
theorem test_rdbits_low : field (exec (.rdbits 4 5 0) six) State.ret = some (.bits 6 0x1a) := by decide
theorem test_slice : field (exec (.slice 4 2) six) State.ret = some (.bytes [0x9a, 0xbc]) := by decide
theorem test_half_bits : halfBits (rd16 six 2) 12 0 = 0x1678 ∧ halfBits (rd16 six 2) 14 14 = 1 := by decide
theorem test_avail : avail six 0 = 6 ∧ avail six 6 = 0 ∧ avail six 14 = 0 := by decide

/-! ### LOOKUP and DEMUX (V20) -/

theorem test_lookup_named : field (exec (.lookup 89) six) State.ret = some (.name .ospf) := by decide
theorem test_lookup_neighbour : field (exec (.lookup 18) six) State.ret = some (.name .undefined) := by decide

/-- A state in phase DEMUX with this protocol number. -/
def atDemux (p : Byte) : State := { place .demux (presented (eth ++ p1Ip)) with ip := { IpRegs.empty with proto := some p } }

theorem test_demux_udp : field (exec .demux (atDemux 17)) (fun t => (t.l4Tag, t.phase)) = some (some .udp, .l4dec) := by decide
theorem test_demux_unknown : field (exec .demux (atDemux 18)) (fun t => (t.l4Tag, t.unsup)) = some (some .unknown, true) := by
  decide

/-- R201, R177: L4DEC with the tag UNKNOWN is DEC_UNKNOWN, though IP_PROTO is TCP's. -/
theorem test_l4dec_unknown_tag : field (step { atDemux 6 with phase := .l4dec, l4Tag := some .unknown })
    (fun t => (t.unsup, t.phase, t.tcp)) = some (true, .payload, TcpRegs.empty) := by decide
/-- R160, log 16: DEMUX with no protocol number goes on, whatever the free number is. -/
theorem test_demux_no_protocol : (field (exec .demux { atDemux 6 with ip := IpRegs.empty }) State.draws) = some 1 := by
  rcases execDemux_cases { atDemux 6 with ip := IpRegs.empty } with ⟨_, h, _⟩ | ⟨_, e⟩
  · cases h
  · rw [exec, e]
    rcases demuxStep_cases (Config.freeProto 0) (draw { atDemux 6 with ip := IpRegs.empty }) with ⟨_, h⟩ | ⟨_, h⟩ <;>
      exact congrArg (fun u : State => some u.draws) h

/-! ### IPDEC (V13 to V19d) -/

theorem test_ipdec_v16 : field (exec .ipdec (started (eth ++ p1Ip))) (fun t => (t.off, t.ip.hlen, t.ip.pname)) =
    some (34, some 20, some .tcp) := by decide
theorem test_ipdec_v17 : field (exec .ipdec (started (eth ++ ipHdr 0x46 0 0x40 0 6))) (fun t => (t.fault, t.faultOff, t.off)) =
    some (.truncIp, some 14, 14) := by decide
theorem test_ipdec_v19b : field (exec .ipdec (started (eth ++ ipHdr 0x44 0 0x40 0 6))) State.fault = some .malformedIp := by
  decide
theorem test_ipdec_v13 : field (exec .ipdec (started [])) (fun t => (t.fault, t.ip)) = some (.truncIp, IpRegs.empty) := by
  decide

/-! ### Transport decoders (V30 to V53) -/

theorem test_icmp_v31 : field (exec .decIcmp (at0 icmpHdr)) (fun t => (t.icmp.rest, t.l4Hlen, t.payLen)) =
    some (some 0x12340001, some 8, some 0) := by decide
theorem test_icmp_v30 : field (exec .decIcmp (at0 (icmpHdr.take 7))) (fun t => (t.fault, t.l4Hlen, t.payLen, t.off)) =
    some (.truncL4, some 0, some 7, 0) := by decide
theorem test_udp_v34 : field (exec .decUdp (at0 udpHdr)) (fun t => (t.udp.len, t.l4Hlen, t.payLen)) =
    some (some 41, some 8, some 0) := by decide
theorem test_udp_v33 : field (exec .decUdp (at0 (udpHdr.take 7))) (fun t => (t.fault, t.udp)) =
    some (.truncL4, UdpRegs.empty) := by decide
theorem test_tcp_v41 : field (exec .decTcp (at0 (tcpHdr 0x50 0x18))) (fun t => (t.tcp.win, t.tcp.csum, t.l4Hlen)) =
    some (some 0xfaf0, some 0xabcd, some 20) := by decide
theorem test_tcp_v47 : field (exec .decTcp (at0 (tcpHdr 0x40 0x18 ++ hello))) (fun t => (t.fault, t.payLen)) =
    some (.malformedL4, some 25) := by decide
theorem test_unknown_v53 : field (exec .decUnknownIgmp (at0 [])) (fun t => (t.unsup, t.fault, t.l4Hlen)) =
    some (true, .clear, some 0) := by decide

/-! ### PAYCHUNK and PARSE (V70 to V73, P1, P6) -/

theorem test_paychunk_one : field (exec .paychunk (at0 hello)) (fun t => (t.chunks, t.off)) = some ([⟨0, 0, 5, hello⟩], 5) := by
  decide
theorem test_paychunk_sixteen : field (exec .paychunk (at0 (List.replicate 17 0x41))) (fun t => (t.chCount, t.off)) =
    some (1, 16) := by decide
/-- P1. -/
theorem test_parse_p1 : field (exec .parse (started (eth ++ p1Ip ++ tcpHdr 0x50 0x18 ++ hello)))
    (fun t => (t.phase, t.off, t.payOff, t.chunks)) = some (.done, 59, some 54, [⟨0, 54, 5, hello⟩]) := by decide
/-- P6 (f). -/
theorem test_parse_p6f : field (exec .parse (started (eth ++ p1Ip ++ tcpHdr 0x70 0x18 ++ hello)))
    (fun t => (t.fault, t.faultOff, t.l4Tag, t.chCount)) = some (.truncL4, some 34, some .tcp, 2) := by decide

/-! ### FILTER (V80 to V8b) -/

/-- FILTER on P1's first 34 bytes with this target. -/
def filtering (target : Word) : State := { started (eth ++ p1Ip) with cmd := 1, target := target }

theorem test_filter_v85 : field (exec .filter (filtering 0xc0a800c7)) State.matchBit = some (some true) := by decide
theorem test_filter_v83 : field (exec .filter (filtering 0x0100a8c0)) State.matchBit = some (some false) := by decide

/-! ### DUMPLINE (V60 to V67) -/

theorem test_dumpline_v62 : field (exec (.dumpline [0x1f, 0x20, 0x7e, 0x7f, 0x80, 0xff]) six) State.ret =
    some (.line (codes "1f 20 7e 7f 80 ff                                         . ~...          ")) := by decide
theorem test_dumpline_v67 : dumpLine [0xde, 0xad, 0xbe, 0xef, 0x0a, 0x0d, 0x09, 0x5c, 0x22, 0x27] =
    codes "de ad be ef 0a 0d 09 5c 22 27                             .......\\\"'      " := by decide

/-! ### The host's side (V90 to V99) -/

/-- One host move still to happen. -/
def hostTo (m : HostMove) (s : State) : State := { s with pending := [.host m] }

/-- Busy in the payload phase. -/
def inPayload : State := { at0 hello with phase := .payload }

/-- V95: after a PARSE ending in TRUNC_L4, TCP_SPORT is unreadable while IP_SRC, L4_TAG and PAY_OFF hold values. -/
theorem test_read_v95 : readReg (parseRun (started (eth ++ p1Ip))) 0x42 = .error ∧
    readReg (parseRun (started (eth ++ p1Ip))) 0x2D = .value 0xc0a80001 ∧
    readReg (parseRun (started (eth ++ p1Ip))) 0x40 = .value 2 ∧
    readReg (parseRun (started (eth ++ p1Ip))) 0x60 = .value 34 := by decide
theorem test_store_byte : Memory.store six.frame 1 0xab =
    [(0, 0x12), (1, 0xab), (2, 0x56), (3, 0x78), (4, 0x9a), (5, 0xbc)] := by decide
theorem test_read_none : field (step (hostTo (.read 0x20) State.reset)) State.reply = some .error := by decide
theorem test_start_clears : field (step (hostTo (.writeStart 1) { State.reset with fault := .truncIp, faultOff := some 14 }))
    (fun t => (t.fault, t.faultOff, t.off, t.phase)) = some (.clear, none, 14, .ipdec) := by decide
theorem test_busy_write_ignored : field (step (hostTo (.writeCmd 1) inPayload)) State.cmd = some 0 := by decide
theorem test_reset_midway : field (step (hostTo .reset { inPayload with taken := [⟨0, 0, 5, hello⟩] }))
    (fun t => (t.phase, t.flen, t.taken.length)) = some (.idle, 0, 1) := by decide
theorem test_fetch_word : field (step (State.reset.withFetchWord 8 6)) (fun t => (t.phase, t.fault)) =
    some (.payload, .truncL4) := by decide

/-! ### Witnesses: states and operands that meet the hypotheses of each statement, every clause -/

/-- Phase L4DEC with no tag. -/
def untagged : State := { six with phase := .l4dec }

/-- Phase L4DEC with the tag UNKNOWN and this in IP_PROTO. -/
def unknownTag (p : Option Byte) : State :=
  { six with phase := .l4dec, l4Tag := some .unknown, ip := { IpRegs.empty with proto := p } }

theorem test_witness_step_runs_row :
    (fetch inPayload = .row (.phase 4) ∧ decodeSelector (.phase 4) = .ok .paychunk ∧ inPayload.pending = []) ∧
    (({ inPayload with pending := [.parser] } : State).pending = .parser :: [] ∧
      fetch { inPayload with pending := [.parser] } = .row (.phase 4)) ∧
    (({ six with pending := [.call (.rd8 0)] } : State).pending = .call (.rd8 0) :: [] ∧ (Instr.rd8 0).isFunction = true) ∧
    (untagged.pending = [] ∧ ∃ v i, fetch untagged = .drawn v ∧ decodeSelector v = .ok i) ∧
    (({ untagged with pending := [.parser] } : State).pending = .parser :: [] ∧
      ∃ v i, fetch { untagged with pending := [.parser] } = .drawn v ∧ decodeSelector v = .ok i) :=
  ⟨⟨rfl, rfl, rfl⟩, ⟨rfl, rfl⟩, ⟨rfl, rfl⟩,
    ⟨rfl, _, (tagSelector_decodes _ _).choose, rfl, (tagSelector_decodes _ _).choose_spec⟩,
    ⟨rfl, _, (tagSelector_decodes _ _).choose, rfl, (tagSelector_decodes _ _).choose_spec⟩⟩

theorem test_witness_phases :
    (State.reset.pending = [] ∧ State.reset.phase = .idle) ∧
    ((started []).pending = [] ∧ (started []).phase = .ipdec ∧ (started []).cmd = 0 ∧ (started []).fused = false) ∧
    ((filtering 0).pending = [] ∧ (filtering 0).phase = .ipdec ∧ (filtering 0).cmd = 1) ∧
    ((atDemux 6).pending = [] ∧ (atDemux 6).phase = .demux) ∧
    ((place .decIcmp six).phase = .l4dec ∧ (place .decIcmp six).l4Tag = some .icmp ∧ (place .decIcmp six).pending = []) ∧
    ((place .decTcp six).phase = .l4dec ∧ (place .decTcp six).l4Tag = some .tcp) ∧
    ((place .decUdp six).phase = .l4dec ∧ (place .decUdp six).l4Tag = some .udp) ∧
    (inPayload.pending = [] ∧ inPayload.phase = .payload) := by decide

theorem test_witness_placed : (Instr.rdbits 0 7 7).wf = true ∧ (Instr.rdbits 0 7 0).wf = true ∧ (Instr.slice 0 1).wf = true ∧
    (Instr.slice 0 16).wf = true ∧ (Instr.dumpline []).wf = true ∧ (Instr.decUnknown 0).wf = true := by decide

theorem test_witness_rows : ((Instr.decUnknown 255).wf = true ∧ encode (.decUnknown 255) = some (.proto 255)) ∧
    (Instr.filter.wf = true ∧ encode .filter = some (.cmd 1)) ∧ decodeSelector (.proto 0) = .ok (.decUnknown 0) ∧
    decodeSelector (.phase 4) = .ok .paychunk := ⟨⟨rfl, rfl⟩, ⟨rfl, rfl⟩, rfl, rfl⟩

theorem test_witness_reset : (hostTo .reset inPayload).pending = .host .reset :: [] ∧
    (hostTo .reset State.reset).pending = .host .reset :: [] := ⟨rfl, rfl⟩

theorem test_witness_start : (hostTo (.writeStart 1) State.reset).pending = .host (.writeStart 1) :: [] ∧
    busy (hostTo (.writeStart 1) State.reset) = false ∧
    busy (hostTo (.writeStart 1) { State.reset with phase := .done }) = false := ⟨rfl, rfl, rfl⟩

theorem test_witness_held : busy inPayload = true ∧ (∀ rest, inPayload.pending ≠ .host .reset :: rest) ∧
    step inPayload = .next (payStep inPayload) := ⟨rfl, fun _ h => List.cons_ne_nil _ _ h.symm, rfl⟩

theorem test_witness_busy_writes : busy (hostTo (.writeCmd 1) inPayload) = true ∧
    (hostTo (.writeCmd 1) inPayload).pending = .host (.writeCmd 1) :: [] ∧
    (busy (hostTo (.writeTarget 1) inPayload) = true ∧
      (hostTo (.writeTarget 1) inPayload).pending = .host (.writeTarget 1) :: []) ∧
    (busy (hostTo (.writeFlen 255) inPayload) = true ∧
      (hostTo (.writeFlen 255) inPayload).pending = .host (.writeFlen 255) :: [] ∧ 255 < 2 ^ Config.lenW) ∧
    (busy (hostTo (.writeStart 1) (started [])) = true ∧
      (hostTo (.writeStart 1) (started [])).pending = .host (.writeStart 1) :: []) :=
  ⟨rfl, rfl, ⟨rfl, rfl⟩, ⟨rfl, rfl, lenW_fits 255 (by decide)⟩, rfl, rfl⟩

theorem test_witness_idle_writes : busy (hostTo (.writeCmd 1) State.reset) = false ∧
    (hostTo (.writeCmd 1) State.reset).pending = .host (.writeCmd 1) :: [] ∧
    (hostTo (.writeTarget 1) State.reset).pending = .host (.writeTarget 1) :: [] ∧
    ((hostTo (.writeFlen 0) State.reset).pending = .host (.writeFlen 0) :: [] ∧ 0 < 2 ^ Config.lenW) ∧
    ((hostTo (.writeFlen (2 ^ Config.lenW - 1)) State.reset).pending = .host (.writeFlen (2 ^ Config.lenW - 1)) :: [] ∧
      2 ^ Config.lenW - 1 < 2 ^ Config.lenW) ∧
    ((hostTo (.writeFlen (2 ^ Config.lenW)) State.reset).pending = .host (.writeFlen (2 ^ Config.lenW)) :: [] ∧
      2 ^ Config.lenW ≤ 2 ^ Config.lenW) ∧
    (hostTo (.writeStart 0) State.reset).pending = .host (.writeStart 0) :: [] :=
  ⟨rfl, rfl, rfl, ⟨rfl, lenW_fits 0 (by decide)⟩, ⟨rfl, Nat.sub_lt (Nat.two_pow_pos _) Nat.one_pos⟩, ⟨rfl, le_refl _⟩, rfl⟩

/-- A state in DONE in which some registers of each group hold a value and others none (the shape of V95). -/
def filled : State :=
  { State.reset with
    phase := .done, l4Tag := some .tcp, payLen := some 5
    ip := { IpRegs.empty with src := some 0xc0a80001, hlen := some 60 }
    tcp := { TcpRegs.empty with win := some 0xffff }, udp := { UdpRegs.empty with len := some 0 }
    icmp := { IcmpRegs.empty with rest := some 0xffffffff } }

theorem test_witness_unreadable : (hostTo (.read 0x20) inPayload).pending = .host (.read 0x20) :: [] ∧
    ((0x0A, none) ∈ controlMap filled ∧ (0x0F, none) ∈ controlMap filled) ∧
    ((0x20, none) ∈ resultMap filled ∧ (0x41, none) ∈ resultMap filled ∧ (0x42, none) ∈ resultMap filled ∧
      (0x50, none) ∈ resultMap filled ∧ (0x58, none) ∈ resultMap filled ∧ (0x60, none) ∈ resultMap filled) ∧
    (busy inPayload = true ∧ (0x20, none) ∈ resultMap inPayload ∧ (0x62, some 0) ∈ resultMap inPayload) ∧
    ((0x04 : Byte) ∉ (controlMap filled).map Prod.fst ∧ (0x04 : Byte) ∉ (resultMap filled).map Prod.fst ∧
      (0xff : Byte) ∉ (controlMap filled).map Prod.fst ∧ (0xff : Byte) ∉ (resultMap filled).map Prod.fst) :=
  ⟨rfl, by decide, by decide, by decide, by decide⟩

theorem test_witness_readable : ((0x00, some 0) ∈ controlMap inPayload ∧ (0x08, some 4) ∈ controlMap inPayload ∧
      (0x10, some 0) ∈ controlMap inPayload) ∧
    (busy filled = false ∧ (0x2D, some 0xc0a80001) ∈ resultMap filled ∧ (0x2F, some 60) ∈ resultMap filled ∧
      (0x40, some 2) ∈ resultMap filled ∧ (0x48, some 0xffff) ∈ resultMap filled ∧ (0x52, some 0) ∈ resultMap filled ∧
      (0x5B, some 0xffffffff) ∈ resultMap filled ∧ (0x61, some 5) ∈ resultMap filled ∧
      (0x62, some 0) ∈ resultMap filled) := ⟨by decide, by decide⟩

/-- A list of 2 ^ LEN_W bytes: one more than can be presented. -/
def tooLong : List Byte := List.replicate (2 ^ Config.lenW) 0

theorem test_witness_load : ((hostTo (.loadFrame [1, 2]) State.reset).pending = .host (.loadFrame [1, 2]) :: [] ∧
      busy (hostTo (.loadFrame [1, 2]) State.reset) = false ∧ ([1, 2] : List Byte).length < 2 ^ Config.lenW ∧
      ([1, 2] : List Byte)[0]? = some 1 ∧ ([1, 2] : List Byte)[1]? = some 2 ∧ ([1, 2] : List Byte).length ≤ 2) ∧
    ((hostTo (.writeFrame 0 1) State.reset).pending = .host (.writeFrame 0 1) :: [] ∧
      busy (hostTo (.writeFrame 0 1) State.reset) = false ∧ 0 + 1 < 2 ^ Config.lenW ∧ 1 ≠ 0) ∧
    ((hostTo (.writeFrame 254 1) State.reset).pending = .host (.writeFrame 254 1) :: [] ∧ 254 + 1 < 2 ^ Config.lenW) ∧
    ((hostTo (.loadFrame tooLong) State.reset).pending = .host (.loadFrame tooLong) :: [] ∧
      busy (hostTo (.loadFrame tooLong) State.reset) = false ∧ 2 ^ Config.lenW ≤ tooLong.length) ∧
    ((hostTo (.writeFrame (2 ^ Config.lenW - 1) 1) State.reset).pending =
        .host (.writeFrame (2 ^ Config.lenW - 1) 1) :: [] ∧
      busy (hostTo (.writeFrame (2 ^ Config.lenW - 1) 1) State.reset) = false ∧
      2 ^ Config.lenW ≤ 2 ^ Config.lenW - 1 + 1) :=
  ⟨⟨rfl, rfl, lenW_fits 2 (by decide), rfl, rfl, by decide⟩, ⟨rfl, rfl, lenW_fits 1 (by decide), by decide⟩,
    ⟨rfl, lenW_fits 255 (by decide)⟩, ⟨rfl, rfl, by simp [tooLong]⟩, rfl, rfl, by omega⟩

theorem test_witness_busy_frame : busy (hostTo (.writeFrame 0 1) inPayload) = true ∧
    (hostTo (.writeFrame 0 1) inPayload).pending = .host (.writeFrame 0 1) :: [] ∧
    (busy (hostTo (.loadFrame []) inPayload) = true ∧
      (hostTo (.loadFrame []) inPayload).pending = .host (.loadFrame []) :: []) := ⟨rfl, rfl, rfl, rfl⟩

theorem test_witness_reads : 5 + 1 ≤ six.flen ∧ 4 + 2 ≤ six.flen ∧ 2 + 4 ≤ six.flen ∧
    ((0 : Nat) ≤ 7 ∧ 7 ≤ 7 ∧ (7 : Nat) ≤ 7 ∧ (0 : Nat) ≤ 0) ∧ ((0 : Nat) ≤ 15 ∧ 15 ≤ 15) ∧ (1 ≤ 1 ∧ 5 + 1 ≤ six.flen) ∧
    (1 ≤ 16 ∧ 16 ≤ 16 ∧ 0 + 16 ≤ (presented (List.replicate 16 0x41)).flen) := by decide

theorem test_witness_reads_outside : six.flen < 6 + 1 ∧ six.flen < 5 + 2 ∧ six.flen < 3 + 4 ∧
    ((0 : Nat) ≤ 7 ∧ 7 ≤ 7 ∧ six.flen < 6 + 1) ∧ (1 ≤ 1 ∧ 1 ≤ 16 ∧ six.flen < 6 + 1) ∧ ((3 < 4 ∨ 7 < 3) ∧ (8 < 0 ∨ 7 < 8)) ∧
    ((0 = 0 ∨ 16 < 0) ∧ (17 = 0 ∨ 16 < 17)) ∧ 16 < (List.replicate 17 (0x41 : Byte)).length := by decide

theorem test_witness_function : (Instr.rd8 0).isFunction = true ∧ exec (.rd8 0) six = .next (setRet (.byte 0x12) six) :=
  ⟨rfl, rfl⟩

theorem test_witness_preimages : ProtoName.icmp ≠ .undefined ∧ ProtoName.sctp ≠ .undefined ∧
    ((18 : Byte) = 0 ∨ (18 : Byte) = 4 ∨ (18 : Byte) = 98 ∨ (18 : Byte) = 255 ∨ (18 : Byte) = 7 ∨ (18 : Byte) = 16 ∨
      (18 : Byte) = 18) := by decide

/-- 15 words of header at the cursor. -/
def longIp : State := at0 (ipHdr 0x4f 0 0 0 6 ++ List.replicate 40 0)

theorem test_witness_ip_ok : (20 ≤ avail (at0 p1Ip) (at0 p1Ip).off ∧ 5 ≤ (rdBits (at0 p1Ip) (at0 p1Ip).off 3 0).toNat ∧
      (rdBits (at0 p1Ip) (at0 p1Ip).off 3 0).toNat * 4 ≤ avail (at0 p1Ip) (at0 p1Ip).off) ∧
    (20 ≤ avail longIp longIp.off ∧ 5 ≤ (rdBits longIp longIp.off 3 0).toNat ∧
      (rdBits longIp longIp.off 3 0).toNat * 4 ≤ avail longIp longIp.off) := by decide

/-- IHL 4 with exactly 20 bytes. -/
def ihl4 : State := at0 (ipHdr 0x44 0 0 0 6)
/-- IHL 6 with exactly 20 bytes. -/
def ihl6 : State := at0 (ipHdr 0x46 0 0 0 6)

theorem test_witness_ip_faults : avail (at0 (p1Ip.take 19)) (at0 (p1Ip.take 19)).off < 20 ∧
    (20 ≤ avail ihl4 ihl4.off ∧ (rdBits ihl4 ihl4.off 3 0).toNat < 5) ∧
    (20 ≤ avail ihl6 ihl6.off ∧ 5 ≤ (rdBits ihl6 ihl6.off 3 0).toNat ∧
      avail ihl6 ihl6.off < (rdBits ihl6 ihl6.off 3 0).toNat * 4) := by decide

theorem test_witness_frames : exec .ipdec ihl4 = .next (ipdecStep ihl4) ∧ exec .ipdec longIp = .next (ipdecStep longIp) ∧
    exec .demux (atDemux 6) = .next (demuxStep 6 (atDemux 6)) ∧
    exec .decUnknownOspf six = .next (unknownStep six) ∧ exec .decIcmp six = .next (enterPayload (icmpDecode six)) ∧
    exec .decUdp six = .next (enterPayload (udpDecode six)) ∧ exec .decTcp six = .next (enterPayload (tcpDecode six)) ∧
    exec .paychunk six = .next (payStep six) ∧ exec .filter longIp = .next (filterStep longIp) ∧
    exec .parse ihl4 = .next (parseRun ihl4) := ⟨rfl, rfl, rfl, rfl, rfl, rfl, rfl, rfl, rfl, rfl⟩

theorem test_witness_demux : (atDemux 1).ip.proto = some 1 ∧ (atDemux 6).ip.proto = some 6 ∧
    (atDemux 17).ip.proto = some 17 ∧ ((atDemux 18).ip.proto = some 18 ∧ (18 : Byte) ≠ 1 ∧ (18 : Byte) ≠ 6 ∧ (18 : Byte) ≠ 17) ∧
    State.reset.ip.proto = none := by decide

theorem test_witness_unknown : ∃ p, Instr.decUnknown 253 = .decUnknown p := ⟨253, rfl⟩

theorem test_witness_icmp_udp : avail (at0 (icmpHdr.take 7)) (at0 (icmpHdr.take 7)).off < 8 ∧
    8 ≤ avail (at0 icmpHdr) (at0 icmpHdr).off ∧ 8 ≤ avail (at0 udpHdr) (at0 udpHdr).off := by decide

/-- A TCP header of exactly 20 bytes with this byte 12. -/
def tcp20 (b12 : Byte) : State := at0 (tcpHdr b12 0x18)
/-- Data offset 15 with exactly 60 bytes. -/
def tcp60 : State := at0 (tcpHdr 0xf0 0x18 ++ List.replicate 40 0)

theorem test_witness_tcp_ok :
    (20 ≤ avail (tcp20 0x50) (tcp20 0x50).off ∧ 5 ≤ (rdBits (tcp20 0x50) ((tcp20 0x50).off + 12) 7 4).toNat ∧
      (rdBits (tcp20 0x50) ((tcp20 0x50).off + 12) 7 4).toNat * 4 ≤ avail (tcp20 0x50) (tcp20 0x50).off) ∧
    (20 ≤ avail tcp60 tcp60.off ∧ 5 ≤ (rdBits tcp60 (tcp60.off + 12) 7 4).toNat ∧
      (rdBits tcp60 (tcp60.off + 12) 7 4).toNat * 4 ≤ avail tcp60 tcp60.off) := by decide

theorem test_witness_tcp_faults : avail (at0 ((tcpHdr 0x50 0x18).take 19)) (at0 ((tcpHdr 0x50 0x18).take 19)).off < 20 ∧
    (20 ≤ avail (tcp20 0x40) (tcp20 0x40).off ∧ (rdBits (tcp20 0x40) ((tcp20 0x40).off + 12) 7 4).toNat < 5) ∧
    (20 ≤ avail (tcp20 0x60) (tcp20 0x60).off ∧ 5 ≤ (rdBits (tcp20 0x60) ((tcp20 0x60).off + 12) 7 4).toNat ∧
      avail (tcp20 0x60) (tcp20 0x60).off < (rdBits (tcp20 0x60) ((tcp20 0x60).off + 12) 7 4).toNat * 4) := by decide

theorem test_witness_paychunk : State.reset.off = State.reset.flen ∧ six.off < six.flen ∧
    ({ six with off := 7 } : State).flen < ({ six with off := 7 } : State).off := by decide

theorem test_witness_parse_steps : (started p1Ip).phase = .ipdec ∧ (started p1Ip).cmd = 0 ∧ (started p1Ip).fused = false ∧
    (started p1Ip).pending = [] ∧ (started p1Ip).off = 14 := by decide

/-- The end of a PARSE without an IP fault, with the event and with a decoded header. -/
theorem test_witness_parse_accounts :
    (exec .parse (started (eth ++ ipHdr 0x45 0 0 0 253)) = .next (parseRun (started (eth ++ ipHdr 0x45 0 0 0 253))) ∧
      (parseRun (started (eth ++ ipHdr 0x45 0 0 0 253))).fault ≠ .truncIp ∧
      (parseRun (started (eth ++ ipHdr 0x45 0 0 0 253))).fault ≠ .malformedIp ∧
      (parseRun (started (eth ++ ipHdr 0x45 0 0 0 253))).unsup = true) ∧
    (exec .parse (started (eth ++ ipHdr 0x45 0 0 0 1 ++ icmpHdr)) =
        .next (parseRun (started (eth ++ ipHdr 0x45 0 0 0 1 ++ icmpHdr))) ∧
      (parseRun (started (eth ++ ipHdr 0x45 0 0 0 1 ++ icmpHdr))).fault = .clear ∧
      (parseRun (started (eth ++ ipHdr 0x45 0 0 0 1 ++ icmpHdr))).l4Valid = true) :=
  ⟨⟨rfl, by decide, by decide, by decide⟩, rfl, by decide, by decide⟩

theorem test_witness_dumpline : (1 ≤ ([0x41] : List Byte).length ∧ ([0x41] : List Byte).length ≤ 16 ∧
      ([0x41] : List Byte)[0]? = some 0x41 ∧ ([0x41] : List Byte).length ≤ 15 ∧ 15 < 16) ∧
    (1 ≤ (List.replicate 16 (0x41 : Byte)).length ∧ (List.replicate 16 (0x41 : Byte)).length ≤ 16 ∧
      (List.replicate 16 (0x41 : Byte))[15]? = some 0x41) ∧ (48 ≤ 48 ∧ 48 < 58) ∧ (48 ≤ 57 ∧ 57 < 58) := by decide

/-- The invariant holds right after an accepted START, with a move still to come. -/
theorem test_witness_invariant : Inv (hostTo .take (started [])) ∧
    step (hostTo .take (started [])) = .next (started []) := by
  refine ⟨?_, rfl⟩
  exact {
    frameWf := rfl, flenFits := lenW_fits 0 (by decide), offFits := lenW_fits 14 (by decide), countLeOff := by decide
    countIsLength := rfl, takeBound := by decide, faultOff := by decide, matchBit := by decide
    unsupExcludes := by decide, l4Excludes := by decide, ipHeld := rfl, tcpHeld := rfl, udpHeld := rfl, icmpHeld := rfl
    phaseInv := ⟨⟨rfl, rfl, rfl, rfl, rfl, rfl⟩, rfl, rfl, rfl, rfl⟩ }

theorem test_witness_parser_moves : (started []).pending = [] ∧ untagged.pending = [] ∧
    (∃ rest, ({ atDemux 6 with pending := [.parser, .parser] } : State).pending = .parser :: rest) := ⟨rfl, rfl, _, rfl⟩

/-- A state in DONE with a recorded fault and the event bit set, and this move to come. -/
def faulted (m : HostMove) : State :=
  { State.reset with phase := .done, fault := .truncL4, faultOff := some 34, unsup := true, pending := [.host m] }

theorem test_witness_cleared : step (faulted (.writeStart 1)) = .next (acceptStart { faulted (.writeStart 1) with pending := [] }) ∧
    ((faulted (.writeStart 1)).fault ≠ .clear ∧ (acceptStart { faulted (.writeStart 1) with pending := [] }).fault = .clear) ∧
    ((faulted (.writeStart 1)).faultOff ≠ none ∧
      (acceptStart { faulted (.writeStart 1) with pending := [] }).faultOff = none) ∧
    ((faulted .reset).unsup = true ∧ (resetBlock { faulted .reset with pending := [] }).unsup = false ∧
      step (faulted .reset) = .next (resetBlock { faulted .reset with pending := [] })) :=
  ⟨rfl, ⟨by decide, rfl⟩, ⟨by decide, rfl⟩, rfl, rfl, rfl⟩

theorem test_witness_busy_made : busy (faulted (.writeStart 1)) = false ∧
    step (faulted (.writeStart 1)) = .next (acceptStart { faulted (.writeStart 1) with pending := [] }) ∧
    busy (acceptStart { faulted (.writeStart 1) with pending := [] }) = true := ⟨rfl, rfl, rfl⟩

/-- Two frames that differ below offset 14 only. -/
theorem test_witness_inside : Instr.ipdec.isFunction = false ∧ 14 ≤ (started (eth ++ [0x45])).off ∧
    (∀ a, 14 ≤ a → a < (started (eth ++ [0x45])).flen →
      frameByte { started (eth ++ [0x45]) with frame := Memory.store (presented (eth ++ [0x45])).frame 0 0xff } a =
        frameByte (started (eth ++ [0x45])) a) := by
  refine ⟨rfl, by decide, fun a h1 h2 => ?_⟩
  have h2' : a < 15 := h2
  obtain rfl : a = 14 := by omega
  decide

theorem test_witness_carry : SameInputs { State.reset with pending := [] } { filled with pending := [] } ∧
    SameModelFields { State.reset with pending := [] } { filled with pending := [] } ∧ busy State.reset = false ∧
    busy filled = false := ⟨⟨rfl, rfl, rfl, rfl⟩, ⟨rfl, rfl, rfl, rfl, rfl, rfl⟩, rfl, rfl⟩

/-- One chunk in the stream, none taken. -/
def streaming : State := { hostTo .take inPayload with chunks := [⟨0, 0, 5, hello⟩] }

theorem test_witness_take : streaming.pending = .host .take :: [] ∧ streaming.chunks[streaming.takePos]? = some ⟨0, 0, 5, hello⟩ ∧
    step streaming = .next { streaming with pending := [], taken := [⟨0, 0, 5, hello⟩], takePos := 1 } := ⟨rfl, rfl, rfl⟩

theorem test_witness_remaining :
    ((place .parse six).pending = [] ∧ (place .parse six).phase = .ipdec ∧ (place .parse six).cmd = 0 ∧
      (place .parse six).fused = true) ∧
    ((place (.decUnknown 0) six).pending = [] ∧ (place (.decUnknown 0) six).phase = .l4dec ∧
      (place (.decUnknown 0) six).l4Tag = some .unknown ∧ (place (.decUnknown 0) six).ip.proto = some 0 ∧
      tagOf 0 = .unknown) ∧
    ((unknownTag (some 132)).pending = [] ∧ (unknownTag (some 132)).phase = .l4dec ∧
      (unknownTag (some 132)).l4Tag = some .unknown ∧ (unknownTag (some 132)).ip.proto = some 132 ∧
      tagOf 132 = .unknown) ∧
    ((unknownTag none).pending = [] ∧ (unknownTag none).phase = .l4dec ∧ (unknownTag none).l4Tag = some .unknown) ∧
    ((unknownTag (some 6)).pending = [] ∧ (unknownTag (some 6)).phase = .l4dec ∧
      (unknownTag (some 6)).l4Tag = some .unknown) ∧
    (untagged.pending = [] ∧ untagged.phase = .l4dec ∧ untagged.l4Tag = none) ∧
    (({ six with pending := [.call .parse] } : State).pending = .call .parse :: [] ∧ Instr.parse.isFunction = false) ∧
    ((hostTo .take six).pending = .host .take :: [] ∧ (hostTo .take six).chunks[(hostTo .take six).takePos]? = none) := by
  decide

end Sys2Proof.Tests
end

section
/-! SUPPORT. The host's moves, one rule each (spec/44_frame_sequencer.md R212, spec/70_reset_and_hazards.md R270): what a
queued move runs, what a write does in IDLE and DONE, and that it does nothing while busy. -/

namespace Sys2Proof.Machine

variable {s t : State} {rest : List Move}

/-- A host move at the head of the queue is taken off and carried out. -/
theorem step_host {m : HostMove} (hq : s.pending = .host m :: rest) :
    step s = hostMove m { s with pending := rest } := by
  simp only [step, hq]

theorem writeCmd_busy (hb : busy s = true) (v : BitVec 1) : writeCmd v s = s := by
  simp [writeCmd, hb]

theorem writeCmd_not_busy (hb : busy s = false) (v : BitVec 1) : writeCmd v s = { s with cmd := v } := by
  simp [writeCmd, hb]

theorem writeTarget_busy (hb : busy s = true) (v : Word) : writeTarget v s = s := by
  simp [writeTarget, hb]

theorem writeTarget_not_busy (hb : busy s = false) (v : Word) : writeTarget v s = { s with target := v } := by
  simp [writeTarget, hb]

theorem writeFlen_busy (hb : busy s = true) (v : Nat) : writeFlen v s = s := by
  simp [writeFlen, hb]

theorem writeFlen_not_busy (hb : busy s = false) (v : Nat) : writeFlen v s = { s with flen := v } := by
  simp [writeFlen, hb]

theorem writeStart_busy (hb : busy s = true) (v : BitVec 1) : writeStart v s = s := by
  simp [writeStart, hb]

/-- Writing 1 to START in IDLE and DONE is accepted (R39). -/
theorem writeStart_one (hb : busy s = false) : writeStart 1 s = acceptStart s := by
  simp [writeStart, hb]

/-- Writing 0 to START does nothing (R21). -/
theorem writeStart_zero (s : State) : writeStart 0 s = s := by
  obtain e | ⟨-, h, -⟩ := writeStart_cases 0 s
  · exact e
  · exact absurd h (by decide)

/-- Taking moves the next chunk of the stream into the record (R272). -/
theorem takeChunk_some {c : Chunk} (hc : s.chunks[s.takePos]? = some c) :
    takeChunk s = { s with taken := s.taken ++ [c], takePos := s.takePos + 1 } := by
  simp [takeChunk, hc]

/-- What an accepted START leaves depends on the host's inputs and the model's own fields only (R35, R39). -/
theorem acceptStart_congr (hin : SameInputs s t) (hown : SameModelFields s t) : acceptStart s = acceptStart t := by
  obtain ⟨hcmd, htarget, hflen, hframe⟩ := hin
  obtain ⟨hpending, hfused, hreply, htaken, hret, hdraws⟩ := hown
  simp only [acceptStart, hcmd, htarget, hflen, hframe, hpending, hfused, hreply, htaken, hret, hdraws]

end Sys2Proof.Machine
end

section
/-! SUPPORT. The parser's move read off PHASE (spec/44_frame_sequencer.md R201): which operation it performs, one lemma a
phase. -/

namespace Sys2Proof.Machine

/-- A dispatch row runs the decoder of its protocol number's tag (R111, R160, R177). -/
theorem exec_decodeProto (p : Byte) (s : State) : exec (decodeProto p) s = .next (decoderStep (tagOf p) s) := by
  unfold decodeProto
  split_ifs with h1 h2 h6 h17 h41 h89 h132
  on_goal 8 =>
    have hu : tagOf p = .unknown := by simp only [tagOf, if_neg h1, if_neg h6, if_neg h17]
    rw [hu]
    rfl
  all_goals subst p; rfl

/-- The row a tag selects runs the decoder of that tag (R201, R204; R177 for UNKNOWN). -/
theorem runSelected_tagSelector (g : L4Tag) (r : IpRegs) (s : State) :
    runSelected (tagSelector g r) s = .next (decoderStep g s) := by
  cases g with
  | icmp => exact exec_decodeProto 1 s
  | tcp => exact exec_decodeProto 6 s
  | udp => exact exec_decodeProto 17 s
  | unknown =>
    simp only [tagSelector, unknownRow]
    split
    · next p _ =>
      split_ifs with hu
      · exact (exec_decodeProto p s).trans (by rw [hu])
      · exact exec_decodeProto 0 s
    · exact exec_decodeProto 0 s

/-- In IDLE and DONE the parser does nothing (R201). -/
theorem parserMove_not_busy (s : State) (hb : busy s = false) : parserMove s = .next s := by
  cases hp : s.phase <;> simp [busy, hp] at hb <;> simp [parserMove, fetch, hp]

/-- Phase IPDEC runs FILTER, PARSE or IPDEC, as CMD and the granularity say (R201, log 4). -/
theorem parserMove_ipdec (s : State) (hp : s.phase = .ipdec) :
    parserMove s = .next (filterStep s) ∨ parserMove s = .next (parseRun s) ∨ parserMove s = .next (ipdecStep s) := by
  simp only [parserMove, fetch, hp]
  split_ifs
  · by_cases hc : s.cmd = 0
    · exact .inr (.inl (by simp only [hc]; rfl))
    · exact .inl (by simp only [runSelected, decodeSelector, decodeCommand, if_neg hc]; rfl)
  · exact .inr (.inr rfl)

/-- Phase DEMUX runs DEMUX (R201). -/
theorem parserMove_demux (s : State) (p : Byte) (hp : s.phase = .demux) (hproto : s.ip.proto = some p) :
    parserMove s = .next (demuxStep p s) := by
  have hrun : parserMove s = execDemux s := by simp only [parserMove, fetch, hp]; rfl
  rw [hrun, execDemux, hproto]

/-- Phase L4DEC runs the decoder that L4_TAG names (R201, R204). -/
theorem parserMove_l4dec (s : State) (g : L4Tag) (hp : s.phase = .l4dec) (hg : s.l4Tag = some g) :
    parserMove s = .next (decoderStep g s) := by
  simp only [parserMove, fetch, fetchDecoder, hp, hg]
  exact runSelected_tagSelector g s.ip s

/-- Phase PAYLOAD runs PAYCHUNK (R201). -/
theorem parserMove_payload (s : State) (hp : s.phase = .payload) : parserMove s = .next (payStep s) := by
  simp only [parserMove, fetch, hp]
  rfl

end Sys2Proof.Machine
end

section
/-! SUPPORT. The invariant through each operation of the block (spec/10_state.md R22 to R31, spec/44_frame_sequencer.md R208):
what each phase's condition says, the steps of IPDEC, DEMUX, the transport decoders and the payload phase, the host's moves. -/

namespace Sys2Proof.Machine

variable {s t : State}

/-! ### Each phase's own condition -/

/-- IDLE and DONE ask nothing of the state. -/
theorem phaseInv_not_busy (hb : busy s = false) : PhaseInv s := by
  cases hp : s.phase <;> simp [busy, hp] at hb <;> simp [PhaseInv, hp]

theorem phaseInv_ipdec (hp : s.phase = .ipdec) : PhaseInv s ↔
    Fresh s ∧ s.off = Config.l2Skip ∧ s.ipValid = false ∧ s.l4Tag = none ∧ s.l4Hlen = none := by
  simp [PhaseInv, hp]

theorem phaseInv_demux (hp : s.phase = .demux) : PhaseInv s ↔
    Fresh s ∧ s.off ≤ s.flen ∧ s.ipValid = true ∧ s.l4Tag = none ∧ s.l4Hlen = none := by
  simp [PhaseInv, hp]

theorem phaseInv_l4dec (hp : s.phase = .l4dec) : PhaseInv s ↔
    Fresh s ∧ s.off ≤ s.flen ∧ s.ipValid = true ∧ s.l4Hlen = none ∧
      ∃ p, s.ip.proto = some p ∧ s.l4Tag = some (tagOf p) ∧ tagOf p ≠ .unknown := by
  simp [PhaseInv, hp]

theorem phaseInv_payload (hp : s.phase = .payload) : PhaseInv s ↔
    s.off ≤ s.flen ∧ s.ipValid = true ∧ s.l4Tag.isSome = true ∧ s.l4Hlen.isSome = true ∧
      ∃ po pl, s.payOff = some po ∧ s.payLen = some pl ∧ po + pl = s.flen ∧ po ≤ s.off ∧
        chunkBytes s.chunks = sliceBytes s po (s.off - po) := by
  simp [PhaseInv, hp]

/-! ### What the parser's state does not depend on -/

/-- Only the host-written CMD and TARGET, the move list and the records of what left the block differ: fields by which no
phase's condition is decided. -/
def SameCommand (s t : State) : Prop :=
  t = { s with
    cmd := t.cmd, target := t.target, pending := t.pending, fused := t.fused, reply := t.reply, taken := t.taken
    takePos := t.takePos, ret := t.ret, draws := t.draws }

/-- Each phase's condition is kept where only those fields differ. -/
theorem SameCommand.phaseInv (h : SameCommand s t) (hs : PhaseInv s) : PhaseInv t := by
  have fresh : Fresh s → Fresh t := fun ⟨h1, h2, h3, h4, h5, h6⟩ => by rw [h]; exact ⟨h1, h2, h3, h4, h5, h6⟩
  have hphase : t.phase = s.phase := by rw [h]
  cases hp : s.phase
  case idle | done => exact phaseInv_not_busy (by simp [busy, hphase, hp])
  case ipdec =>
    obtain ⟨hf, hrest⟩ := (phaseInv_ipdec hp).1 hs
    exact (phaseInv_ipdec (hphase.trans hp)).2 ⟨fresh hf, by rw [h]; exact hrest⟩
  case demux =>
    obtain ⟨hf, hrest⟩ := (phaseInv_demux hp).1 hs
    exact (phaseInv_demux (hphase.trans hp)).2 ⟨fresh hf, by rw [h]; exact hrest⟩
  case l4dec =>
    obtain ⟨hf, hrest⟩ := (phaseInv_l4dec hp).1 hs
    exact (phaseInv_l4dec (hphase.trans hp)).2 ⟨fresh hf, by rw [h]; exact hrest⟩
  case payload =>
    have hrest := (phaseInv_payload hp).1 hs
    exact (phaseInv_payload (hphase.trans hp)).2 (by rw [h]; exact hrest)

/-- So is the invariant, as long as no more chunks count as taken than the stream has. -/
theorem SameCommand.inv (h : SameCommand s t) (hi : Inv s) (htake : t.takePos ≤ s.chunks.length) : Inv t := by
  have hphase := h.phaseInv hi.phaseInv
  rw [h] at hphase ⊢
  exact { hi with takeBound := htake, phaseInv := hphase }

/-! ### IPDEC and FILTER -/

/-- Recording an IP fault keeps the invariant: nothing has been decoded yet (R236). -/
theorem Inv.raiseIp (hi : Inv s) (hp : s.phase = .ipdec) {c : FaultCode} (hc : c ≠ .clear) (p : Nat) :
    Inv (raiseIp c p s) := by
  obtain ⟨hf, -⟩ := (phaseInv_ipdec hp).1 hi.phaseInv
  exact { hi with
    faultOff := by simp [hc]
    unsupExcludes := by simp [hf.unsup]
    l4Excludes := by simp [hf.l4Valid]
    phaseInv := phaseInv_not_busy rfl }

/-- Accepting the IP header keeps the invariant: its length was checked against the frame (R133, R135). -/
theorem Inv.ipAccept (hi : Inv s) (hp : s.phase = .ipdec) (hc : ipCheck s s.off = none) : Inv (ipAccept s.off s) := by
  obtain ⟨hf, -, -, htag, hhlen⟩ := (phaseInv_ipdec hp).1 hi.phaseInv
  obtain h | h | ⟨-, -, h5, hlen⟩ := ipCheck_cases s s.off
  · simp [hc] at h
  · simp [hc] at h
  have hend : s.off + (wordsToBytes (ipHeaderAt s s.off).ihl).toNat ≤ s.flen := by
    rw [wordsToBytes_toNat, ipHeaderAt_ihl]
    simp only [avail] at hlen
    omega
  exact { hi with
    offFits := hend.trans_lt hi.flenFits
    countLeOff := by simp [hi.countIsLength, hf.chunks]
    ipHeld := by simpa using ⟨_, rfl, h5⟩
    phaseInv := (phaseInv_demux rfl).2 ⟨{ hf with }, hend, rfl, htag, hhlen⟩ }

/-- The step of IPDEC keeps the invariant. -/
theorem Inv.ipdecStep (hi : Inv s) (hp : s.phase = .ipdec) : Inv (ipdecStep s) := by
  obtain ⟨c, hc, e⟩ | ⟨hc, e⟩ := ipdecStep_cases s <;> rw [e]
  · exact hi.raiseIp hp (ipCheck_not_clear _ _ _ hc) _
  · exact hi.ipAccept hp hc

/-- The step of FILTER keeps the invariant. -/
theorem Inv.filterStep (hi : Inv s) (hp : s.phase = .ipdec) : Inv (filterStep s) := by
  obtain ⟨c, hc, e⟩ | ⟨-, e⟩ := filterStep_cases s <;> rw [e]
  · exact hi.raiseIp hp (ipCheck_not_clear _ _ _ hc) _
  · exact { hi with matchBit := by simp, phaseInv := phaseInv_not_busy rfl }

/-! ### DEMUX and the transport decoders -/

/-- The payload phase is entered with nothing emitted: its record is the rest of the frame (R206). -/
theorem phaseInv_enterPayload (hoff : s.off ≤ s.flen) (hip : s.ipValid = true) (htag : s.l4Tag.isSome = true)
    (hlen : s.l4Hlen.isSome = true) (hch : s.chunks = []) : PhaseInv (enterPayload s) :=
  (phaseInv_payload rfl).2 ⟨hoff, hip, htag, hlen, s.off, s.flen - s.off, rfl, rfl, Nat.add_sub_of_le hoff, le_rfl, by
    simp [hch, chunkBytes, sliceBytes, Memory.slice]⟩

/-- While no transport header is valid, no transport register holds a value (R28, R29, R30). -/
theorem Inv.variants_empty (hi : Inv s) (hl4 : s.l4Valid = false) :
    s.tcp = TcpRegs.empty ∧ s.udp = UdpRegs.empty ∧ s.icmp = IcmpRegs.empty :=
  ⟨by simpa [hl4] using hi.tcpHeld, by simpa [hl4] using hi.udpHeld, by simpa [hl4] using hi.icmpHeld⟩

/-- The step of DEMUX keeps the invariant (R160, R177, R203). -/
theorem Inv.demuxStep (hi : Inv s) (hp : s.phase = .demux) {p : Byte} (hproto : s.ip.proto = some p) :
    Inv (demuxStep p s) := by
  obtain ⟨hf, hoff, hip, -, hhlen⟩ := (phaseInv_demux hp).1 hi.phaseInv
  have hl4 := hf.l4Valid
  obtain ⟨htcp, hudp, hicmp⟩ := hi.variants_empty hl4
  obtain ⟨-, e⟩ | ⟨hu, e⟩ := demuxStep_cases p s <;> rw [e]
  · exact { hi with
      unsupExcludes := fun _ => ⟨hf.fault, hl4⟩
      l4Excludes := by simp [unknownStep, hl4]
      tcpHeld := by simp [unknownStep, hl4, htcp]
      udpHeld := by simp [unknownStep, hl4, hudp]
      icmpHeld := by simp [unknownStep, hl4, hicmp]
      phaseInv := phaseInv_enterPayload hoff hip rfl rfl hf.chunks }
  · exact { hi with
      l4Excludes := by simp [hl4]
      tcpHeld := by simp [hl4, htcp]
      udpHeld := by simp [hl4, hudp]
      icmpHeld := by simp [hl4, hicmp]
      phaseInv := (phaseInv_l4dec rfl).2 ⟨{ hf with }, hoff, hip, hhlen, p, hproto, rfl, hu⟩ }

/-- A transport fault, then the payload phase at the undecoded header, keeps the invariant (R164, R237). -/
theorem Inv.enterPayload_raiseL4 (hi : Inv s) (hp : s.phase = .l4dec) {c : FaultCode} (hc : c ≠ .clear) (q : Nat) :
    Inv (enterPayload (raiseL4 c q s)) := by
  obtain ⟨hf, hoff, hip, -, p, -, htag, -⟩ := (phaseInv_l4dec hp).1 hi.phaseInv
  exact { hi with
    faultOff := by simp [hc]
    unsupExcludes := by simp [hf.unsup]
    l4Excludes := by simp [hf.l4Valid]
    phaseInv := phaseInv_enterPayload hoff hip (by simp [htag]) rfl hf.chunks }

/-- A decoded transport header that fits the frame, then the payload phase behind it, keeps the invariant: the tag's variant
holds the header and the others nothing (R163, R206). -/
theorem Inv.enterPayload_consumeL4 (hi : Inv s) (hp : s.phase = .l4dec) {n : BitVec 6} (hn : n.toNat ≤ avail s s.off)
    {rt : TcpRegs} {ru : UdpRegs} {ri : IcmpRegs}
    (htcp : if s.l4Tag = some .tcp then TcpHeld rt else rt = TcpRegs.empty)
    (hudp : if s.l4Tag = some .udp then UdpHeld ru else ru = UdpRegs.empty)
    (hicmp : if s.l4Tag = some .icmp then IcmpHeld ri else ri = IcmpRegs.empty) :
    Inv (enterPayload (consumeL4 n { s with tcp := rt, udp := ru, icmp := ri })) := by
  obtain ⟨hf, hoff, hip, -, p, -, htag, hu⟩ := (phaseInv_l4dec hp).1 hi.phaseInv
  have hend : s.off + n.toNat ≤ s.flen := by simp only [avail] at hn; omega
  exact { hi with
    offFits := hend.trans_lt hi.flenFits
    countLeOff := by simp [hi.countIsLength, hf.chunks]
    unsupExcludes := by simp [hf.unsup]
    l4Excludes := by simp [hf.fault, htag, hu]
    tcpHeld := by simpa using htcp
    udpHeld := by simpa using hudp
    icmpHeld := by simpa using hicmp
    phaseInv := phaseInv_enterPayload hend hip (by simp [htag]) rfl hf.chunks }

/-- Every transport decoder's step keeps the invariant (R163, R164, R204). -/
theorem Inv.decoderStep (hi : Inv s) (hp : s.phase = .l4dec) {g : L4Tag} (hg : s.l4Tag = some g) :
    Inv (decoderStep g s) := by
  obtain ⟨hf, -, -, -, p, -, htag, hu⟩ := (phaseInv_l4dec hp).1 hi.phaseInv
  obtain ⟨htcp, hudp, hicmp⟩ := hi.variants_empty hf.l4Valid
  cases g with
  | unknown => exact absurd (Option.some.inj (htag.symm.trans hg)) hu
  | icmp =>
    simp only [Machine.decoderStep]
    obtain ⟨e, -⟩ | ⟨hn, e⟩ := icmpDecode_cases s <;> rw [e]
    · exact hi.enterPayload_raiseL4 hp (by decide) _
    · exact hi.enterPayload_consumeL4 hp (n := 8) hn (by simp [hg, htcp]) (by simp [hg, hudp]) (by simpa [hg] using ⟨_, rfl⟩)
  | udp =>
    simp only [Machine.decoderStep]
    obtain ⟨e, -⟩ | ⟨hn, e⟩ := udpDecode_cases s <;> rw [e]
    · exact hi.enterPayload_raiseL4 hp (by decide) _
    · exact hi.enterPayload_consumeL4 hp (n := 8) hn (by simp [hg, htcp]) (by simpa [hg] using ⟨_, rfl⟩) (by simp [hg, hicmp])
  | tcp =>
    simp only [Machine.decoderStep]
    obtain ⟨c, hc, hcs, e⟩ | ⟨h5, hn, e⟩ := tcpDecode_cases s <;> rw [e]
    · exact hi.enterPayload_raiseL4 hp (by rcases hcs with rfl | rfl <;> decide) _
    · exact hi.enterPayload_consumeL4 hp (by simpa using hn) (by simpa [hg] using ⟨_, rfl, h5⟩) (by simp [hg, hudp])
        (by simp [hg, hicmp])

/-! ### The payload phase and PARSE -/

/-- The bytes of the stream with one more chunk (R205, R208 (a)). -/
theorem chunkBytes_emitChunk (s : State) :
    chunkBytes (emitChunk s).chunks = chunkBytes s.chunks ++ sliceBytes s s.off (chunkSize s) := by
  simp [chunkBytes, nextChunk]

/-- The payload step keeps the invariant: the chunks emitted are the payload's bytes up to the cursor (R205, R208 (a)). -/
theorem Inv.payStep (hi : Inv s) (hp : s.phase = .payload) : Inv (payStep s) := by
  obtain ⟨-, e⟩ | ⟨-, e, hpos, -, hend⟩ := payStep_cases s <;> rw [e]
  · exact { hi with phaseInv := phaseInv_not_busy rfl }
  obtain ⟨-, hip, htag, hhlen, po, pl, hpo, hpl, hsum, hle, hbytes⟩ := (phaseInv_payload hp).1 hi.phaseInv
  have hcount := hi.countLeOff
  have hstream : chunkBytes (emitChunk s).chunks = sliceBytes s po (s.off + chunkSize s - po) := by
    have happend := Memory.slice_append s.frame po (s.off - po) (chunkSize s)
    rw [show po + (s.off - po) = s.off by omega, show s.off - po + chunkSize s = s.off + chunkSize s - po by omega]
      at happend
    rw [chunkBytes_emitChunk, hbytes]
    exact happend
  exact { hi with
    offFits := hend.trans_lt hi.flenFits
    countLeOff := by simp; omega
    countIsLength := by simp [hi.countIsLength]
    takeBound := by simpa using hi.takeBound.trans (Nat.le_succ _)
    phaseInv := (phaseInv_payload (s := emitChunk s) hp).2
      ⟨hend, hip, htag, hhlen, po, pl, hpo, hpl, hsum, hle.trans (Nat.le_add_right _ _), hstream⟩ }

/-- The payload step stays in the phase PAYLOAD or ends in DONE (R205). -/
theorem payStep_phase (hp : s.phase = .payload) : (payStep s).phase = .payload ∨ (payStep s).phase = .done := by
  obtain ⟨-, e⟩ | ⟨-, e, -⟩ := payStep_cases s <;> rw [e]
  · exact .inr rfl
  · exact .inl hp

/-- The whole payload phase keeps the invariant. -/
theorem Inv.payLoop (hi : Inv s) (hp : s.phase = .payload) (k : Nat) : Inv (payLoop k s) := by
  refine (payLoop_keeps (fun x => Inv x ∧ (x.phase = .payload ∨ x.phase = .done)) (fun x hx hd => ?_) k s ⟨hi, .inl hp⟩).1
  obtain ⟨hx, hpayload | hdone⟩ := hx
  · exact ⟨hx.payStep hpayload, payStep_phase hpayload⟩
  · exact absurd hdone hd

/-- Every transport decoder ends in the payload phase (R204, R206). -/
theorem decoderStep_phase (g : L4Tag) (s : State) : (decoderStep g s).phase = .payload := by cases g <;> rfl

/-- From an accepted IP header to the payload phase the invariant is kept (R203, R204). -/
theorem Inv.transportSteps (hi : Inv s) (hp : s.phase = .demux) {p : Byte} (hproto : s.ip.proto = some p) :
    Inv (transportSteps p s) ∧ (transportSteps p s).phase = .payload := by
  have hd := hi.demuxStep hp hproto
  unfold Machine.transportSteps
  obtain ⟨hu, e⟩ | ⟨hu, e⟩ := demuxStep_cases p s
  · rw [if_pos hu]
    exact ⟨hd, by rw [e]; rfl⟩
  · rw [if_neg hu]
    rw [e] at hd ⊢
    exact ⟨hd.decoderStep rfl rfl, decoderStep_phase _ _⟩

/-- A whole PARSE keeps the invariant (R201, R207). -/
theorem Inv.parseRun (hi : Inv s) (hp : s.phase = .ipdec) : Inv (parseRun s) := by
  unfold Machine.parseRun
  cases hc : ipCheck s s.off with
  | some c => exact hi.raiseIp hp (ipCheck_not_clear _ _ _ hc) _
  | none =>
    obtain ⟨ht, htp⟩ := (hi.ipAccept hp hc).transportSteps (p := (ipHeaderAt s s.off).proto) rfl rfl
    exact ht.payLoop htp _

/-! ### One move, one step -/

/-- The parser's move keeps the invariant (R201). -/
theorem Inv.parserMove (hi : Inv s) (h : parserMove s = .next t) : Inv t := by
  cases hp : s.phase
  case idle | done =>
    rw [parserMove_not_busy s (by simp [busy, hp])] at h
    cases h
    exact hi
  case ipdec =>
    obtain e | e | e := parserMove_ipdec s hp <;> rw [e] at h <;> cases h
    · exact hi.filterStep hp
    · exact hi.parseRun hp
    · exact hi.ipdecStep hp
  case demux =>
    obtain ⟨-, -, hip, -⟩ := (phaseInv_demux hp).1 hi.phaseInv
    obtain ⟨hdr, hregs, -⟩ : IpHeld s.ip := by simpa [hip] using hi.ipHeld
    have hproto : s.ip.proto = some hdr.proto := by rw [hregs]; rfl
    rw [parserMove_demux s _ hp hproto] at h
    cases h
    exact hi.demuxStep hp hproto
  case l4dec =>
    obtain ⟨-, -, -, -, p, -, htag, -⟩ := (phaseInv_l4dec hp).1 hi.phaseInv
    rw [parserMove_l4dec s _ hp htag] at h
    cases h
    exact hi.decoderStep hp htag
  case payload =>
    rw [parserMove_payload s hp] at h
    cases h
    exact hi.payStep hp

/-- An accepted START makes the state the invariant asks for in IPDEC (R39). -/
theorem Inv.acceptStart (hi : Inv s) : Inv (acceptStart s) where
  frameWf := hi.frameWf
  flenFits := hi.flenFits
  offFits := lenW_fits 14 (by decide)
  countLeOff := by simp
  countIsLength := rfl
  takeBound := le_rfl
  faultOff := by simp
  matchBit := by simp
  unsupExcludes := by simp
  l4Excludes := by simp
  ipHeld := rfl
  tcpHeld := rfl
  udpHeld := rfl
  icmpHeld := rfl
  phaseInv := (phaseInv_ipdec rfl).2 ⟨⟨rfl, rfl, rfl, rfl, rfl, rfl⟩, rfl, rfl, rfl, rfl⟩

/-- The invariant holds at reset, whatever the frame holds in canonical form (R40, R260). -/
theorem inv_resetBlock (hw : Memory.wf s.frame = true) : Inv (resetBlock s) where
  frameWf := hw
  flenFits := lenW_fits 0 (by decide)
  offFits := lenW_fits 0 (by decide)
  countLeOff := le_rfl
  countIsLength := rfl
  takeBound := le_rfl
  faultOff := by simp
  matchBit := by simp
  unsupExcludes := by simp
  l4Excludes := by simp
  ipHeld := rfl
  tcpHeld := rfl
  udpHeld := rfl
  icmpHeld := rfl
  phaseInv := phaseInv_not_busy rfl

/-- The consumer's take keeps the invariant: it counts only chunks the stream has (R272). -/
theorem Inv.takeChunk (hi : Inv s) : Inv (takeChunk s) := by
  obtain e | ⟨c, hc, e⟩ := takeChunk_cases s <;> rw [e]
  · exact hi
  · obtain ⟨hlt, -⟩ := List.getElem?_eq_some_iff.1 hc
    exact SameCommand.inv (s := s) rfl hi hlt

/-- Every host move that is carried out keeps the invariant (R212): registers and frame change in IDLE and DONE only. -/
theorem Inv.hostMove (hi : Inv s) {m : HostMove} (h : hostMove m s = .next t) : Inv t := by
  obtain ⟨v, -, rfl⟩ | ⟨v, -, rfl⟩ | ⟨v, -, hv, rfl⟩ | ⟨v, -, rfl⟩ | ⟨a, bs, -, hb, rfl⟩ | ⟨n, -, rfl⟩ | ⟨-, rfl⟩ |
    ⟨-, rfl⟩ := hostMove_cases m s t h
  · cases hb : busy s
    · rw [writeCmd_not_busy hb]
      exact SameCommand.inv (s := s) rfl hi hi.takeBound
    · rw [writeCmd_busy hb]
      exact hi
  · cases hb : busy s
    · rw [writeTarget_not_busy hb]
      exact SameCommand.inv (s := s) rfl hi hi.takeBound
    · rw [writeTarget_busy hb]
      exact hi
  · cases hb : busy s
    · rw [writeFlen_not_busy hb]
      exact { hi with flenFits := hv, phaseInv := phaseInv_not_busy hb }
    · rw [writeFlen_busy hb]
      exact hi
  · obtain e | ⟨-, -, e⟩ := writeStart_cases v s <;> rw [e]
    · exact hi
    · exact hi.acceptStart
  · exact { hi with frameWf := Memory.wf_storeAll _ _ _ hi.frameWf, phaseInv := phaseInv_not_busy hb }
  · exact SameCommand.inv (s := s) rfl hi hi.takeBound
  · exact hi.takeChunk
  · exact inv_resetBlock hi.frameWf

end Sys2Proof.Machine
end

section
/-! SUPPORT. The invariant of the machine, settled. -/

namespace Sys2Proof.Machine

/-- Settles O48: the state after reset is a reset block whose frame is empty. -/
theorem invariantHoldsAtReset : Obligations.InvariantHoldsAtReset := inv_resetBlock (s := State.reset) rfl

/-- Settles O49: taking the move off the queue keeps the invariant, and so does each kind of move. -/
theorem everyStepKeepsInvariant : Obligations.EveryStepKeepsInvariant := by
  intro s t hi h
  have hdequeue : ∀ rest, Inv { s with pending := rest } := fun rest => SameCommand.inv (s := s) rfl hi hi.takeBound
  obtain ⟨-, hm⟩ | ⟨rest, -, hm⟩ | ⟨m, rest, -, hm⟩ | ⟨i, rest, -, hf, hm⟩ := step_cases s t h
  · exact hi.parserMove hm
  · exact (hdequeue rest).parserMove hm
  · exact (hdequeue rest).hostMove hm
  · obtain ⟨r, rfl⟩ := exec_function_cases i _ t hf hm
    exact SameCommand.inv (s := { s with pending := rest }) rfl (hdequeue rest) hi.takeBound

end Sys2Proof.Machine
end

section
/-! SUPPORT. What the operations leave unchanged (spec/10_state.md R21, R24, R33, R36). -/

namespace Sys2Proof.Machine

/-- The fields that no small step of a PARSE writes, every other field at its reset value (R36). -/
def unwritten (s : State) : State :=
  { State.reset with
    cmd := s.cmd, target := s.target, flen := s.flen, frame := s.frame
    matchValid := s.matchValid, matchBit := s.matchBit
    pending := s.pending, fused := s.fused, reply := s.reply, taken := s.taken, takePos := s.takePos, ret := s.ret
    draws := s.draws }

/-- Whatever is read off these fields, every small step keeps. -/
theorem keptBySteps_unwritten {α : Type} (view : State → α) :
    KeptBySteps fun s t => view (unwritten s) = view (unwritten t) where
  refl _ := rfl
  trans _ _ _ := Eq.trans
  raiseIp _ _ _ _ := rfl
  raiseL4 _ _ _ _ := rfl
  accept _ := rfl
  enter _ := rfl
  note _ := rfl
  tag _ _ := rfl
  select _ _ := rfl
  consume _ _ := rfl
  icmp _ _ := rfl
  udp _ _ := rfl
  tcp _ _ := rfl
  finish _ := rfl
  emit _ := rfl

/-- The host-written registers and the frame. -/
def hostInputs (s : State) : BitVec 1 × Word × Nat × Memory := (s.cmd, s.target, s.flen, s.frame)

theorem sameInputs_iff (s t : State) : SameInputs s t ↔ hostInputs s = hostInputs t := by
  simp [SameInputs, hostInputs]

/-- Settles O52: no small step writes an input, and neither does a function, a free value or FILTER's answer. -/
theorem parserNeverWritesInputs : Obligations.ParserNeverWritesInputs := by
  intro i s t h
  rw [sameInputs_iff]
  exact exec_keeps (keptBySteps_unwritten hostInputs) (fun _ _ => rfl) (fun _ => rfl) (fun _ _ => rfl) i s t h

/-- Every small step leaves the cursor or moves it forward (R24). -/
theorem keptBySteps_off : KeptBySteps fun s t => s.off ≤ t.off where
  refl _ := le_rfl
  trans _ _ _ := le_trans
  raiseIp _ _ _ _ := le_rfl
  raiseL4 _ _ _ _ := le_rfl
  accept s := Nat.le_add_right s.off _
  enter _ := le_rfl
  note _ := le_rfl
  tag _ _ := le_rfl
  select _ _ := le_rfl
  consume s _ := Nat.le_add_right s.off _
  icmp _ _ := le_rfl
  udp _ _ := le_rfl
  tcp _ _ := le_rfl
  finish _ := le_rfl
  emit s := Nat.le_add_right s.off _

/-- Settles O53: the small steps never move the cursor back, and no other write of an operation touches it. -/
theorem cursorNeverDecreases : Obligations.CursorNeverDecreases := by
  intro i s t h
  exact exec_keeps keptBySteps_off (fun _ _ => le_rfl) (fun _ => le_rfl) (fun _ _ => le_rfl) i s t h

/-- Settles O44: none of these fields is written by a small step of PARSE. -/
theorem parseFrame : Obligations.ParseFrame := by
  intro s t h
  obtain rfl : parseRun s = t := Host.Outcome.next.inj h
  have hkept : unwritten s = unwritten (parseRun s) := parseRun_keeps (keptBySteps_unwritten id) s
  have kept {α : Type} (f : State → α) : f (unwritten s) = f (unwritten (parseRun s)) := congrArg f hkept
  have hframe : (parseRun s).frame = s.frame := (kept State.frame).symm
  exact ⟨(kept State.cmd).symm, (kept State.target).symm, (kept State.flen).symm, hframe,
    fun a => congrArg (Memory.byte · a) hframe, (kept State.matchValid).symm, (kept State.matchBit).symm,
    ⟨kept State.pending, kept State.fused, kept State.reply, kept State.taken, kept State.ret, kept State.draws⟩,
    (kept State.takePos).symm⟩

/-- Settles O28: a recorded fault and an accepted header write these registers only. -/
theorem ipdecFrame : Obligations.IpdecFrame := by
  intro s t h
  obtain rfl : ipdecStep s = t := Host.Outcome.next.inj h
  obtain ⟨c, -, e⟩ | ⟨-, e⟩ := ipdecStep_cases s <;> rw [e] <;> exact ⟨rfl, fun _ => rfl⟩

/-- DEMUX on a protocol number writes the tag, the event with its length, the payload record and the phase (R36, R160). -/
theorem demuxStep_frame (p : Byte) (s t : State) (ht : t = demuxStep p s) :
    t = { s with
      l4Tag := t.l4Tag, l4Hlen := t.l4Hlen, unsup := t.unsup, payOff := t.payOff, payLen := t.payLen, phase := t.phase } ∧
    SameBytes s t := by
  subst ht
  obtain ⟨-, e⟩ | ⟨-, e⟩ := demuxStep_cases p s <;> rw [e] <;> exact ⟨rfl, fun _ => rfl⟩

/-- Settles O32: DEMUX writes its registers, after a free value where IP_PROTO holds none; the DEC_UNKNOWN rows are one step. -/
theorem demuxAndUnknownFrame : Obligations.DemuxAndUnknownFrame := by
  refine ⟨fun s t h => ?_, ?_⟩
  · obtain ⟨p, -, e⟩ | ⟨-, e⟩ := execDemux_cases s
    · obtain ⟨ht, hbytes⟩ := demuxStep_frame p s t (Host.Outcome.next.inj (h.symm.trans e))
      exact ⟨by rw [ht], hbytes⟩
    · obtain ⟨ht, hbytes⟩ := demuxStep_frame _ (draw s) t (Host.Outcome.next.inj (h.symm.trans e))
      exact ⟨by rw [ht]; rfl, hbytes⟩
  · rintro i s t (rfl | rfl | rfl | rfl | ⟨p, rfl⟩) h <;> cases h <;> exact ⟨rfl, fun _ => rfl⟩

/-- Settles O37: a transport fault writes the fault record, a decoded header its variant and the common registers. -/
theorem transportDecoderFrame : Obligations.TransportDecoderFrame := by
  refine ⟨fun s t h => ?_, fun s t h => ?_, fun s t h => ?_⟩
  · obtain rfl : enterPayload (icmpDecode s) = t := Host.Outcome.next.inj h
    obtain ⟨e, -⟩ | ⟨-, e⟩ := icmpDecode_cases s <;> rw [e] <;> exact ⟨rfl, fun _ => rfl⟩
  · obtain rfl : enterPayload (udpDecode s) = t := Host.Outcome.next.inj h
    obtain ⟨e, -⟩ | ⟨-, e⟩ := udpDecode_cases s <;> rw [e] <;> exact ⟨rfl, fun _ => rfl⟩
  · obtain rfl : enterPayload (tcpDecode s) = t := Host.Outcome.next.inj h
    obtain ⟨c, -, -, e⟩ | ⟨-, -, e⟩ := tcpDecode_cases s <;> rw [e] <;> exact ⟨rfl, fun _ => rfl⟩

/-- Settles O40: finishing writes PHASE, emitting a chunk the stream, its count and the cursor. -/
theorem paychunkFrame : Obligations.PaychunkFrame := by
  intro s t h
  obtain rfl : payStep s = t := Host.Outcome.next.inj h
  obtain ⟨-, e⟩ | ⟨-, e, -⟩ := payStep_cases s <;> rw [e] <;> exact ⟨rfl, fun _ => rfl⟩

/-- The parser's move writes no input (R21, R33, R201). -/
theorem parserMove_sameInputs {s t : State} (h : parserMove s = .next t) : SameInputs s t := by
  obtain ⟨-, rfl⟩ | ⟨v, i, -, -, -, he⟩ | ⟨v, i, -, -, -, he⟩ := parserMove_cases s t h
  · exact ⟨rfl, rfl, rfl, rfl⟩
  · exact parserNeverWritesInputs i s t he
  · exact parserNeverWritesInputs i (draw s) t he

/-- While busy no host move but a reset writes an input (R39, R270, R271). -/
theorem hostMove_busy_sameInputs {s t : State} {m : HostMove} (hb : busy s = true) (hm : m ≠ .reset)
    (h : hostMove m s = .next t) : SameInputs s t := by
  have same : SameInputs s s := ⟨rfl, rfl, rfl, rfl⟩
  obtain ⟨v, -, rfl⟩ | ⟨v, -, rfl⟩ | ⟨v, -, -, rfl⟩ | ⟨v, -, rfl⟩ | ⟨a, bs, -, hn, -⟩ | ⟨n, -, rfl⟩ | ⟨-, rfl⟩ |
    ⟨hr, -⟩ := hostMove_cases m s t h
  · rw [writeCmd_busy hb]; exact same
  · rw [writeTarget_busy hb]; exact same
  · rw [writeFlen_busy hb]; exact same
  · rw [writeStart_busy hb]; exact same
  · exact absurd (hb.symm.trans hn) (by decide)
  · exact same
  · obtain e | ⟨c, -, e⟩ := takeChunk_cases s <;> rw [e] <;> exact same
  · exact absurd hr hm

/-- Settles O11: START is accepted where the block is not busy; while it is, no move but a reset writes an input. -/
theorem acceptedStartClears : Obligations.AcceptedStartClears := by
  refine ⟨fun s rest hq hb => ?_, fun s t hb hr h => ?_⟩
  · rw [step_host hq, hostMove, writeStart_one (s := { s with pending := rest }) hb]
    rfl
  · obtain ⟨-, hm⟩ | ⟨rest, -, hm⟩ | ⟨m, rest, hq, hm⟩ | ⟨i, rest, -, -, hm⟩ := step_cases s t h
    · exact parserMove_sameInputs hm
    · exact parserMove_sameInputs (s := { s with pending := rest }) hm
    · exact hostMove_busy_sameInputs (s := { s with pending := rest }) hb (fun e => hr rest (e ▸ hq)) hm
    · exact parserNeverWritesInputs i { s with pending := rest } t hm

end Sys2Proof.Machine
end

section
/-! SUPPORT. The register map (spec/10_state.md R20 to R31): a read by number answers what the map lists under it. -/

namespace Sys2Proof.Machine

theorem flagCode_eq_toNat : flagCode = Bool.toNat := by
  funext b
  cases b <;> rfl

/-- The numbers of the control, sequencer and status registers and the cursor (R21 to R24). -/
def controlNumbers : List Byte :=
  [0x00, 0x01, 0x02, 0x03, 0x08, 0x09, 0x0A, 0x0B, 0x0C, 0x0D, 0x0E, 0x0F, 0x10]

/-- The numbers of the result registers (R26 to R31). -/
def resultNumbers : List Byte :=
  [0x20, 0x21, 0x22, 0x23, 0x24, 0x25, 0x26, 0x27, 0x28, 0x29, 0x2A, 0x2B, 0x2C, 0x2D, 0x2E, 0x2F, 0x30,
    0x40, 0x41, 0x42, 0x43, 0x44, 0x45, 0x46, 0x47, 0x48, 0x49, 0x4A, 0x50, 0x51, 0x52, 0x53, 0x58, 0x59, 0x5A, 0x5B,
    0x60, 0x61, 0x62]

theorem controlNumbers_lt : ∀ num ∈ controlNumbers, num.toNat < 0x20 := by simp [controlNumbers]

theorem resultNumbers_not_control : ∀ num ∈ resultNumbers, ¬ num.toNat < 0x20 := by simp [resultNumbers]

theorem controlMap_numbers (s : State) : (controlMap s).map Prod.fst = controlNumbers := rfl

theorem resultMap_numbers (s : State) : (resultMap s).map Prod.fst = resultNumbers := rfl

theorem mem_controlNumbers {s : State} {num : Byte} {v : Option Nat} (h : (num, v) ∈ controlMap s) :
    num ∈ controlNumbers :=
  controlMap_numbers s ▸ List.mem_map_of_mem (f := Prod.fst) h

theorem mem_resultNumbers {s : State} {num : Byte} {v : Option Nat} (h : (num, v) ∈ resultMap s) :
    num ∈ resultNumbers :=
  resultMap_numbers s ▸ List.mem_map_of_mem (f := Prod.fst) h

/-- A number outside a list of register numbers differs from each of them as a natural. -/
theorem toNat_not_mem_of_not_mem {num : Byte} {l : List Byte} (h : num ∉ l) : num.toNat ∉ l.map BitVec.toNat := fun hm => by
  obtain ⟨k, hk, he⟩ := List.mem_map.1 hm
  exact h (BitVec.eq_of_toNat_eq he ▸ hk)

/-- A number that no entry of the control map has answers an error (log 11). -/
theorem readControl_unlisted (s : State) {num : Byte} (h : num ∉ controlNumbers) : readControl s num = .error := by
  have hnat := toNat_not_mem_of_not_mem h
  unfold readControl
  split
  on_goal 14 => rfl
  all_goals next hk => exact absurd (by rw [hk]; decide) hnat

/-- A number that no entry of the result map has answers an error (log 11). -/
theorem readResult_unlisted (s : State) {num : Byte} (h : num ∉ resultNumbers) : readResult s num = .error := by
  have hnat := toNat_not_mem_of_not_mem h
  unfold readResult
  split
  on_goal 40 => rfl
  all_goals next hk => exact absurd (by rw [hk]; decide) hnat

theorem tagCode_map (o : Option L4Tag) : (o.map fun t => t.code.toNat) = (o.map L4Tag.code).map BitVec.toNat := by
  rw [Option.map_map]
  rfl

theorem nameCode_map (o : Option ProtoName) : (o.map fun c => c.code.toNat) = (o.map ProtoName.code).map BitVec.toNat := by
  rw [Option.map_map]
  rfl

/-- A read of a listed number answers what the control map holds there (R21 to R24). -/
theorem readControl_of_mem {s : State} : ∀ e ∈ controlMap s, readControl s e.1 = replyOf e.2 := by
  simp only [controlMap, ← flagCode_eq_toNat, List.cons_append, List.nil_append, List.forall_mem_cons]
  exact ⟨rfl, rfl, rfl, rfl, rfl, rfl, rfl, rfl, rfl, rfl, rfl, rfl, rfl, List.forall_mem_nil _⟩

/-- A read of a listed number answers what the result map holds there (R26 to R31). -/
theorem readResult_of_mem {s : State} : ∀ e ∈ resultMap s, readResult s e.1 = replyOf e.2 := by
  simp only [resultMap, ipMap, tcpMap, udpMap, icmpMap, nameCode_map, tagCode_map, List.forall_mem_append,
    List.forall_mem_cons, List.not_mem_nil, false_implies, implies_true, and_true]
  and_intros <;> rfl

/-- Control registers are read at any time (R263). -/
theorem readReg_control (s : State) {num : Byte} (h : num ∈ controlNumbers) : readReg s num = readControl s num :=
  if_pos (controlNumbers_lt num h)

/-- A result register answers an error while the block is busy (R272). -/
theorem readReg_result_busy {s : State} (hb : busy s = true) {num : Byte} (h : num ∈ resultNumbers) :
    readReg s num = .error := by
  rw [readReg, if_neg (resultNumbers_not_control num h), if_pos hb]

/-- A result register is read in IDLE and DONE (R272). -/
theorem readReg_result {s : State} (hb : busy s = false) {num : Byte} (h : num ∈ resultNumbers) :
    readReg s num = readResult s num := by
  rw [readReg, if_neg (resultNumbers_not_control num h), hb]
  rfl

/-- At any time a register of the control map answers what the map holds under its number. -/
theorem readReg_of_mem_controlMap {s : State} {num : Byte} {v : Option Nat} (h : (num, v) ∈ controlMap s) :
    readReg s num = replyOf v :=
  (readReg_control s (mem_controlNumbers h)).trans (readControl_of_mem _ h)

/-- In IDLE and DONE a register of the result map answers what the map holds under its number. -/
theorem readReg_of_mem_resultMap {s : State} (hb : busy s = false) {num : Byte} {v : Option Nat}
    (h : (num, v) ∈ resultMap s) : readReg s num = replyOf v :=
  (readReg_result hb (mem_resultNumbers h)).trans (readResult_of_mem _ h)

/-- Settles O14: a listed register without a value answers the map's `none`, an unlisted number falls through both tables. -/
theorem unreadableRegistersAnswerErrors : Obligations.UnreadableRegistersAnswerErrors := by
  refine ⟨fun s num rest hq => step_host hq, fun s num h => readReg_of_mem_controlMap h, fun s num h => ?_,
    fun s num v hb h => readReg_result_busy hb (mem_resultNumbers h), fun s num hc hr => ?_⟩
  · cases hb : busy s
    · exact readReg_of_mem_resultMap hb h
    · exact readReg_result_busy hb (mem_resultNumbers h)
  · rw [controlMap_numbers] at hc
    rw [resultMap_numbers] at hr
    unfold readReg
    split_ifs
    · exact readControl_unlisted s hc
    · rfl
    · exact readResult_unlisted s hr

/-- Settles O15: the two maps list what a read answers. -/
theorem readableRegistersAnswerValues : Obligations.ReadableRegistersAnswerValues :=
  ⟨fun _ _ _ h => readReg_of_mem_controlMap h, fun _ _ _ hb h => readReg_of_mem_resultMap hb h⟩

end Sys2Proof.Machine
end

section
/-! SUPPORT. Reset, the host's writes, START and the consumer's take, settled; and the numbers of the named values. -/

namespace Sys2Proof.Machine

/-- Settles O59: the numbers are read off the four tables of codes. -/
theorem registerCodes : Obligations.RegisterCodes := by
  unfold Obligations.RegisterCodes
  decide

/-- Settles O9: in IDLE with no move queued the parser has no step. -/
theorem resetValues : Obligations.ResetValues :=
  ⟨rfl, rfl, rfl, rfl, rfl, rfl, rfl, rfl, rfl, rfl, rfl, rfl, rfl, rfl, rfl, rfl, rfl, rfl, rfl, rfl, rfl, rfl, rfl,
    parserMove_not_busy State.reset rfl⟩

/-- Settles O13: a write in IDLE and DONE stores its value, or is refused where LEN_W bits cannot hold it. -/
theorem writesWhenNotBusy : Obligations.WritesWhenNotBusy := by
  intro s rest hb
  have hb' : busy { s with pending := rest } = false := hb
  refine ⟨fun v hq => ?_, fun v hq => ?_, fun v hq hv => ?_, fun v hq hv => ?_, fun hq => ?_⟩ <;>
    rw [step_host hq, hostMove]
  · rw [writeCmd_not_busy hb']
  · rw [writeTarget_not_busy hb']
  · rw [if_pos hv, writeFlen_not_busy hb']
  · rw [if_neg (Nat.not_lt.2 hv)]
  · rw [writeStart_zero]

/-- Settles O56: all that an accepted START keeps is the inputs and the model's own fields. -/
theorem noCarryOverBetweenCommands : Obligations.NoCarryOverBetweenCommands := by
  intro s t hin hown hs ht
  rw [writeStart_one hs, writeStart_one ht]
  exact acceptStart_congr hin hown

/-- Settles O58: the consumer's move takes the chunk at `takePos`. -/
theorem takeGivesTheNextChunk : Obligations.TakeGivesTheNextChunk := by
  intro s rest c hq hc
  rw [step_host hq, hostMove, takeChunk_some (s := { s with pending := rest }) hc]

end Sys2Proof.Machine
end

section
/-! SUPPORT. The read primitives called by themselves (spec/20_memory.md R61 to R68, R71): inside the frame each returns its
value, outside it stops, and operands outside a rule's range are refused. -/

namespace Sys2Proof.Machine

/-! ### Spans and operand ranges -/

section

variable {s : State} {a n hi lo : Nat} {data : List Byte}

theorem readSpan_inside (r : Ret) (h : a + n ≤ s.flen) : readSpan a n r s = .next { s with ret := r } := by
  obtain ⟨-, e⟩ | ⟨hout, -⟩ := readSpan_cases a n r s
  · exact e
  · omega

theorem readSpan_outside (r : Ret) (h : s.flen < a + n) : readSpan a n r s = .fault (.outOfFrame a n) := by
  obtain ⟨hin, -⟩ | ⟨-, e⟩ := readSpan_cases a n r s
  · omega
  · exact e

theorem bitRangeOk_iff : bitRangeOk hi lo = true ↔ lo ≤ hi ∧ hi ≤ 7 := by simp [bitRangeOk]

theorem sliceLengthOk_iff : sliceLengthOk n = true ↔ 1 ≤ n ∧ n ≤ 16 := by simp [sliceLengthOk]

theorem dumpLengthOk_iff : dumpLengthOk data = true ↔ data.length ≤ 16 := by simp [dumpLengthOk]

/-- RDBITS on operands of its range reads one byte and returns the shifted and masked value (R67). -/
theorem exec_rdbits_in_range (hlo : lo ≤ hi) (hhi : hi ≤ 7) :
    exec (.rdbits a hi lo) s =
      readSpan a 1 (.bits (hi - lo + 1) ((frameByte s a).toNat / 2 ^ lo % 2 ^ (hi - lo + 1))) s := by
  rw [← byteBits_toNat]
  exact if_pos (bitRangeOk_iff.2 ⟨hlo, hhi⟩)

theorem exec_rdbits_refused (h : hi < lo ∨ 7 < hi) : exec (.rdbits a hi lo) s = .refused .operandRange :=
  if_neg fun hok => by
    have := bitRangeOk_iff.1 hok
    omega

/-- SLICE on a length of its range reads that many bytes (R68). -/
theorem exec_slice_in_range (h1 : 1 ≤ n) (h16 : n ≤ 16) :
    exec (.slice a n) s = readSpan a n (.bytes (sliceBytes s a n)) s :=
  if_pos (sliceLengthOk_iff.2 ⟨h1, h16⟩)

theorem exec_slice_refused (h : n = 0 ∨ 16 < n) : exec (.slice a n) s = .refused .operandRange :=
  if_neg fun hok => by
    have := sliceLengthOk_iff.1 hok
    omega

theorem exec_dumpline_refused (h : 16 < data.length) : exec (.dumpline data) s = .refused .operandRange :=
  if_neg fun hok => Nat.not_le.2 h (dumpLengthOk_iff.1 hok)

end

/-! ### The statements -/

/-- Settles O18: inside the frame the span check passes, and the value is the bytes' big-endian sum. -/
theorem fixedWidthReadsAreBigEndian : Obligations.FixedWidthReadsAreBigEndian :=
  ⟨fun _ _ h => readSpan_inside _ h,
    fun s a h => ⟨rd16 s a, readSpan_inside _ h, be16_toNat (frameByte s) a⟩,
    fun s a h => ⟨rd32 s a, readSpan_inside _ h, be32_toNat (frameByte s) a⟩⟩

/-- Settles O20: bits of a byte and of a 16-bit value are a quotient's remainder. -/
theorem bitReadsShiftAndMask : Obligations.BitReadsShiftAndMask := by
  refine ⟨fun s a hi lo hlo hhi ha => ?_, fun s a hi lo _ _ _ => ?_⟩
  · rw [exec_rdbits_in_range hlo hhi, readSpan_inside _ ha]
  · rw [halfBits_toNat, rd16, be16_toNat]

/-- Settles O21: the list that SLICE returns is the frame's own slice. -/
theorem sliceReturnsBytesInOrder : Obligations.SliceReturnsBytesInOrder := fun s a n h1 h16 ha =>
  ⟨sliceBytes s a n, by rw [exec_slice_in_range h1 h16, readSpan_inside _ ha], sliceBytes_length s a n,
    fun i hi => sliceBytes_get s a n i hi⟩

/-- Settles O23: a function's answer is the state with its returned value recorded. -/
theorem functionsLeaveTheBlockUnchanged : Obligations.FunctionsLeaveTheBlockUnchanged := by
  intro i s t hf h
  obtain ⟨r, rfl⟩ := exec_function_cases i s t hf h
  exact ⟨rfl, fun _ => rfl⟩

/-- Settles O19: a wide read is defined from its bytes, the lowest offset first. -/
theorem mixedWidthReadsAgree : Obligations.MixedWidthReadsAgree := ⟨fun _ _ => rfl, fun _ _ => rfl⟩

/-- Settles O22: a span outside the frame faults, an operand outside its range is refused. -/
theorem readsOutsideTheFrameStop : Obligations.ReadsOutsideTheFrameStop := by
  refine ⟨fun _ _ h => readSpan_outside _ h, fun _ _ h => readSpan_outside _ h, fun _ _ h => readSpan_outside _ h,
    fun s a hi lo hlo hhi h => ?_, fun s a n h1 h16 h => ?_, fun _ _ _ _ h => exec_rdbits_refused h,
    fun _ _ _ h => exec_slice_refused h, fun _ _ h => exec_dumpline_refused h⟩
  · rw [exec_rdbits_in_range hlo hhi, readSpan_outside _ h]
  · rw [exec_slice_in_range h1 h16, readSpan_outside _ h]

end Sys2Proof.Machine
end

section
/-! SUPPORT. Which frame bytes the parser reads (spec/20_memory.md R62, R72): with another frame memory that reads alike from
offset 14 to the frame's end, every step does the same, its own frame memory apart. -/

namespace Sys2Proof.Machine

/-- The state with another frame memory in it. -/
def reframe (m : Memory) (s : State) : State := { s with frame := m }

/-- The cursor is at 14 or behind, and the memory m reads like the frame at every offset from 14 to the frame's end. -/
def ReadsAlike (m : Memory) (s : State) : Prop :=
  14 ≤ s.off ∧ ∀ a, 14 ≤ a → a < s.flen → frameByte (reframe m s) a = frameByte s a

@[simp] theorem reframe_phase (m : Memory) (s : State) : (reframe m s).phase = s.phase := rfl
@[simp] theorem reframe_ip (m : Memory) (s : State) : (reframe m s).ip = s.ip := rfl
@[simp] theorem reframe_off (m : Memory) (s : State) : (reframe m s).off = s.off := rfl
@[simp] theorem reframe_flen (m : Memory) (s : State) : (reframe m s).flen = s.flen := rfl
@[simp] theorem reframe_target (m : Memory) (s : State) : (reframe m s).target = s.target := rfl
@[simp] theorem avail_reframe (m : Memory) (s : State) (o : Nat) : avail (reframe m s) o = avail s o := rfl

theorem withFrame_next (m : Memory) (t : State) : withFrame m (.next t) = .next (reframe m t) := rfl

/-- Small steps keep the frame and FLEN and never move the cursor back, so memories read alike after them as before. -/
theorem keptBySteps_readsAlike (m : Memory) : KeptBySteps fun s t => ReadsAlike m s → ReadsAlike m t where
  refl _ h := h
  trans _ _ _ h1 h2 h := h2 (h1 h)
  raiseIp _ _ _ _ h := h
  raiseL4 _ _ _ _ h := h
  accept _ h := ⟨h.1.trans (Nat.le_add_right _ _), h.2⟩
  enter _ h := h
  note _ h := h
  tag _ _ h := h
  select _ _ h := h
  consume _ _ h := ⟨h.1.trans (Nat.le_add_right _ _), h.2⟩
  icmp _ _ h := h
  udp _ _ h := h
  tcp _ _ h := h
  finish _ h := h
  emit _ h := ⟨h.1.trans (Nat.le_add_right _ _), h.2⟩

/-! ### A header is decoded from its own bytes -/

theorem decodeIpv4_congr {v w : Nat → Byte} (h : ∀ d < 20, v d = w d) : decodeIpv4 v = decodeIpv4 w := by
  simp [decodeIpv4, be16, be32, h]

theorem decodeIcmp_congr {v w : Nat → Byte} (h : ∀ d < 8, v d = w d) : decodeIcmp v = decodeIcmp w := by
  simp [decodeIcmp, be16, be32, h]

theorem decodeUdp_congr {v w : Nat → Byte} (h : ∀ d < 8, v d = w d) : decodeUdp v = decodeUdp w := by
  simp [decodeUdp, be16, h]

theorem decodeTcp_congr {v w : Nat → Byte} (h : ∀ d < 20, v d = w d) : decodeTcp v = decodeTcp w := by
  simp [decodeTcp, be16, be32, h]

section

variable {m : Memory} {s : State}

/-! ### What passed checks say, and what reads no frame byte -/

theorem avail_of_ipCheck (hc : ipCheck s s.off = none) : 20 ≤ avail s s.off := by
  obtain e | e | ⟨-, hlen, -⟩ := ipCheck_cases s s.off
  · simp [hc] at e
  · simp [hc] at e
  · exact hlen

theorem avail_of_fixedCheck {n : Nat} (hc : fixedCheck s s.off n = none) : n ≤ avail s s.off := by
  obtain e | ⟨-, hlen⟩ := fixedCheck_cases s s.off n
  · simp [hc] at e
  · exact hlen

theorem avail_of_tcpCheck (hc : tcpCheck s s.off = none) : 20 ≤ avail s s.off := by
  obtain e | e | ⟨-, hlen, -⟩ := tcpCheck_cases s s.off
  · simp [hc] at e
  · simp [hc] at e
  · exact hlen

theorem fixedCheck_reframe (m : Memory) (s : State) (q n : Nat) :
    fixedCheck (reframe m s) q n = fixedCheck s q n := rfl

theorem demuxStep_reframe (m : Memory) (p : Byte) (s : State) :
    demuxStep p (reframe m s) = reframe m (demuxStep p s) := by
  unfold demuxStep
  split <;> rfl

/-- The steps from the IP header's end to the payload phase keep what each small step keeps. -/
theorem transportSteps_keeps {R : State → State → Prop} (k : KeptBySteps R) (p : Byte) (s : State) :
    R s (transportSteps p s) := by
  unfold transportSteps
  split
  · exact demuxStep_keeps k p s
  · exact k.trans _ _ _ (demuxStep_keeps k p s) (decoderStep_keeps k _ _)

/-! ### Reads at the cursor -/

namespace ReadsAlike

/-- A byte at the cursor or behind it, inside the frame, reads alike. -/
theorem byte_at (h : ReadsAlike m s) {d n : Nat} (hn : n ≤ avail s s.off) (hd : d < n) :
    frameByte (reframe m s) (s.off + d) = frameByte s (s.off + d) := by
  obtain ⟨hoff, hbytes⟩ := h
  unfold avail at hn
  exact hbytes _ (by omega) (by omega)

/-- So does a header of n bytes at the cursor that fits the frame. -/
theorem viewAt_off (h : ReadsAlike m s) {n : Nat} (hn : n ≤ avail s s.off) :
    ∀ d < n, viewAt (reframe m s) s.off d = viewAt s s.off d := fun _ hd => h.byte_at hn hd

/-- So does a bit field of such a header. -/
theorem rdBits_off (h : ReadsAlike m s) {d n : Nat} (hn : n ≤ avail s s.off) (hd : d < n) (hi lo : Nat) :
    rdBits (reframe m s) (s.off + d) hi lo = rdBits s (s.off + d) hi lo :=
  congrArg (byteBits · hi lo) (h.byte_at hn hd)

/-- So does a 32-bit field of such a header. -/
theorem rd32_off (h : ReadsAlike m s) {d n : Nat} (hn : n ≤ avail s s.off) (hd : d + 3 < n) :
    rd32 (reframe m s) (s.off + d) = rd32 s (s.off + d) := by
  simp only [rd32, be32, Nat.add_assoc]
  rw [h.byte_at hn (d := d) (by omega), h.byte_at hn (d := d + 1) (by omega), h.byte_at hn (d := d + 2) (by omega),
    h.byte_at hn hd]

/-- The bytes of the next chunk lie between the cursor and the frame's end. -/
theorem nextChunk_reframe (h : ReadsAlike m s) : nextChunk (reframe m s) = nextChunk s := by
  obtain ⟨hoff, hbytes⟩ := h
  have hdata : sliceBytes (reframe m s) s.off (chunkSize s) = sliceBytes s s.off (chunkSize s) :=
    Memory.slice_congr _ _ _ _ fun a h1 h2 => hbytes a (by omega) (by unfold chunkSize at h2; omega)
  exact congrArg (Chunk.mk s.chCount s.off (chunkSize s)) hdata

/-! ### The checks and the match bit -/

/-- IHL is read only where 20 bytes are left (R133). -/
theorem ipCheck_reframe (h : ReadsAlike m s) : ipCheck (reframe m s) s.off = ipCheck s s.off := by
  unfold ipCheck
  rw [avail_reframe]
  split
  · rfl
  · have hihl : rdBits (reframe m s) s.off 3 0 = rdBits s s.off 3 0 :=
      h.rdBits_off (d := 0) (Nat.not_lt.1 ‹_›) (by decide) 3 0
    rw [hihl]

/-- The data offset is read only where 20 bytes are left (R172). -/
theorem tcpCheck_reframe (h : ReadsAlike m s) : tcpCheck (reframe m s) s.off = tcpCheck s s.off := by
  unfold tcpCheck
  rw [avail_reframe]
  split
  · rfl
  · rw [h.rdBits_off (Nat.not_lt.1 ‹_›) (by decide)]

theorem matchFlag_reframe (h : ReadsAlike m s) (hlen : 20 ≤ avail s s.off) :
    matchFlag (reframe m s) s.off = matchFlag s s.off := by
  unfold matchFlag
  rw [h.rd32_off hlen (by decide), h.rd32_off hlen (by decide), reframe_target]

theorem ipHeaderAt_reframe (h : ReadsAlike m s) (hlen : 20 ≤ avail s s.off) :
    ipHeaderAt (reframe m s) s.off = ipHeaderAt s s.off :=
  decodeIpv4_congr (h.viewAt_off hlen)

theorem tcpHeaderAt_reframe (h : ReadsAlike m s) (hlen : 20 ≤ avail s s.off) :
    tcpHeaderAt (reframe m s) s.off = tcpHeaderAt s s.off :=
  decodeTcp_congr (h.viewAt_off hlen)

/-! ### Each step -/

theorem ipAccept_reframe (h : ReadsAlike m s) (hlen : 20 ≤ avail s s.off) :
    ipAccept s.off (reframe m s) = reframe m (ipAccept s.off s) := by
  unfold ipAccept
  rw [h.ipHeaderAt_reframe hlen]
  rfl

theorem ipdecStep_reframe (h : ReadsAlike m s) : ipdecStep (reframe m s) = reframe m (ipdecStep s) := by
  unfold ipdecStep
  rw [reframe_off, h.ipCheck_reframe]
  cases hc : ipCheck s s.off with
  | some c => rfl
  | none => exact h.ipAccept_reframe (avail_of_ipCheck hc)

theorem filterStep_reframe (h : ReadsAlike m s) : filterStep (reframe m s) = reframe m (filterStep s) := by
  unfold filterStep
  rw [reframe_off, h.ipCheck_reframe]
  cases hc : ipCheck s s.off with
  | some c => rfl
  | none =>
    simp only [h.matchFlag_reframe (avail_of_ipCheck hc)]
    rfl

theorem icmpDecode_reframe (h : ReadsAlike m s) : icmpDecode (reframe m s) = reframe m (icmpDecode s) := by
  unfold icmpDecode
  rw [reframe_off, fixedCheck_reframe]
  cases hc : fixedCheck s s.off Config.icmpHlen with
  | some c => rfl
  | none =>
    simp only [decodeIcmp_congr (h.viewAt_off (avail_of_fixedCheck hc))]
    rfl

theorem udpDecode_reframe (h : ReadsAlike m s) : udpDecode (reframe m s) = reframe m (udpDecode s) := by
  unfold udpDecode
  rw [reframe_off, fixedCheck_reframe]
  cases hc : fixedCheck s s.off Config.udpHlen with
  | some c => rfl
  | none =>
    simp only [decodeUdp_congr (h.viewAt_off (avail_of_fixedCheck hc))]
    rfl

theorem tcpDecode_reframe (h : ReadsAlike m s) : tcpDecode (reframe m s) = reframe m (tcpDecode s) := by
  unfold tcpDecode
  rw [reframe_off, h.tcpCheck_reframe]
  cases hc : tcpCheck s s.off with
  | some c => rfl
  | none =>
    simp only [h.tcpHeaderAt_reframe (avail_of_tcpCheck hc)]
    rfl

theorem decoderStep_reframe (h : ReadsAlike m s) (g : L4Tag) :
    decoderStep g (reframe m s) = reframe m (decoderStep g s) := by
  cases g with
  | unknown => rfl
  | icmp => exact congrArg enterPayload h.icmpDecode_reframe
  | tcp => exact congrArg enterPayload h.tcpDecode_reframe
  | udp => exact congrArg enterPayload h.udpDecode_reframe

/-- DEMUX reads no frame byte, and the decoder it selects reads the header at the cursor. -/
theorem transportSteps_reframe (h : ReadsAlike m s) (p : Byte) :
    transportSteps p (reframe m s) = reframe m (transportSteps p s) := by
  unfold transportSteps
  rw [demuxStep_reframe]
  split
  · rfl
  · exact (demuxStep_keeps (keptBySteps_readsAlike m) p s h).decoderStep_reframe (tagOf p)

theorem payStep_reframe (h : ReadsAlike m s) : payStep (reframe m s) = reframe m (payStep s) := by
  unfold payStep
  rw [reframe_flen, reframe_off]
  split
  · rfl
  · rw [emitChunk, h.nextChunk_reframe]
    rfl

theorem payLoop_reframe (k : Nat) (h : ReadsAlike m s) : payLoop k (reframe m s) = reframe m (payLoop k s) := by
  induction k generalizing s with
  | zero => rfl
  | succ k ih =>
    rw [payLoop, payLoop, reframe_phase]
    split
    · rfl
    · rw [h.payStep_reframe, ih (payStep_keeps (keptBySteps_readsAlike m) s h)]

/-- The whole PARSE: no part of it starts at a cursor below 14 (R72). -/
theorem parseRun_reframe (h : ReadsAlike m s) : parseRun (reframe m s) = reframe m (parseRun s) := by
  unfold parseRun
  rw [reframe_off, h.ipCheck_reframe]
  cases hc : ipCheck s s.off with
  | some c => rfl
  | none =>
    have hlen := avail_of_ipCheck hc
    have kept := keptBySteps_readsAlike m
    have haccept : ReadsAlike m (ipAccept s.off s) := kept.accept s h
    have htransport := transportSteps_keeps kept (ipHeaderAt s s.off).proto _ haccept
    simp only [h.ipHeaderAt_reframe hlen, h.ipAccept_reframe hlen, haccept.transportSteps_reframe]
    exact htransport.payLoop_reframe _

end ReadsAlike

end

theorem execDemux_reframe (m : Memory) (s : State) : execDemux (reframe m s) = withFrame m (execDemux s) := by
  unfold execDemux
  rw [reframe_ip]
  cases s.ip.proto with
  | some p => exact congrArg Host.Outcome.next (demuxStep_reframe m p s)
  | none => exact congrArg Host.Outcome.next (demuxStep_reframe m _ (draw s))

/-- Settles O55: each operation of the parser is one of the steps above. -/
theorem onlyBytesInsideAreRead : Obligations.OnlyBytesInsideAreRead := by
  intro i s m hf hoff hbytes
  have h : ReadsAlike m s := ⟨hoff, hbytes⟩
  cases i <;> simp only [Instr.isFunction, Bool.true_eq_false] at hf
  case parse => exact congrArg Host.Outcome.next h.parseRun_reframe
  case filter => exact congrArg Host.Outcome.next h.filterStep_reframe
  case ipdec => exact congrArg Host.Outcome.next h.ipdecStep_reframe
  case demux => exact execDemux_reframe m s
  case paychunk => exact congrArg Host.Outcome.next h.payStep_reframe
  case decIcmp => exact congrArg Host.Outcome.next (h.decoderStep_reframe .icmp)
  case decTcp => exact congrArg Host.Outcome.next (h.decoderStep_reframe .tcp)
  case decUdp => exact congrArg Host.Outcome.next (h.decoderStep_reframe .udp)
  case decUnknownIgmp | decUnknownP41 | decUnknownOspf | decUnknownSctp | decUnknown => rfl

end Sys2Proof.Machine
end

section
/-! SUPPORT. The header layouts lose no field and no listed bit (spec/30_encoding.md R91 to R96). A 16-bit or 32-bit
field is read back by the wire-order lemmas of Laws/Bits; what is said here is how the fields narrower than a byte share one. -/

namespace Sys2Proof

/-! ### Fields narrower than a byte, put together -/

/-- R91, byte 0. -/
theorem ver_append_ihl (v : Nat → Byte) : (decodeIpv4 v).ver ++ (decodeIpv4 v).ihl = v 0 :=
  BitVec.extractLsb'_append_extractLsb'

/-- R91, byte 1. -/
theorem dscp_append_ecn (v : Nat → Byte) : (decodeIpv4 v).dscp ++ (decodeIpv4 v).ecn = v 1 :=
  BitVec.extractLsb'_append_extractLsb'

/-- A 16-bit word is its bits 15, 14, 13 and 12 to 0 in a row (R92). -/
theorem halfBits_flags_append (w : Half) :
    (halfBits w 15 15 ++ halfBits w 14 14 ++ halfBits w 13 13 ++ halfBits w 12 0 : Half) = w := by
  have top2 : (halfBits w 15 15 ++ halfBits w 14 14 : BitVec 2) = w.extractLsb' 14 2 :=
    BitVec.extractLsb'_append_extractLsb'_eq_extractLsb' rfl
  have top3 : (w.extractLsb' 14 2 ++ halfBits w 13 13 : BitVec 3) = w.extractLsb' 13 3 :=
    BitVec.extractLsb'_append_extractLsb'_eq_extractLsb' rfl
  have all : (w.extractLsb' 13 3 ++ halfBits w 12 0 : Half) = w := BitVec.extractLsb'_append_extractLsb'
  rw [top2, top3, all]

/-- R92, bytes 6 and 7. -/
theorem flags_append_fragoff (v : Nat → Byte) :
    (decodeIpv4 v).rsv ++ (decodeIpv4 v).df ++ (decodeIpv4 v).mf ++ (decodeIpv4 v).fragoff = be16 v 6 :=
  halfBits_flags_append (be16 v 6)

/-- R95, R96, byte 12. -/
theorem doff_append_gap (v : Nat → Byte) : (decodeTcp v).doff ++ (v 12).extractLsb 3 0 = v 12 :=
  BitVec.extractLsb'_append_extractLsb'

/-- R95, R96, byte 13. -/
theorem gap_append_flags (v : Nat → Byte) : (v 13).extractLsb 7 6 ++ (decodeTcp v).flags = v 13 :=
  BitVec.extractLsb'_append_extractLsb'

/-! ### Fields read back from the 16 bits they share -/

section

variable (rsv df mf : BitVec 1) (fragoff : BitVec 13)

theorem halfBits_rsv : halfBits (rsv ++ df ++ mf ++ fragoff) 15 15 = rsv := by
  calc (rsv ++ df ++ mf ++ fragoff).extractLsb' 15 1
      = (rsv ++ df ++ mf).extractLsb' 2 1 := BitVec.extractLsb'_append_eq_of_le (by decide)
    _ = (rsv ++ df).extractLsb' 1 1 := BitVec.extractLsb'_append_eq_of_le (by decide)
    _ = rsv := BitVec.extractLsb'_append_eq_left

theorem halfBits_df : halfBits (rsv ++ df ++ mf ++ fragoff) 14 14 = df := by
  calc (rsv ++ df ++ mf ++ fragoff).extractLsb' 14 1
      = (rsv ++ df ++ mf).extractLsb' 1 1 := BitVec.extractLsb'_append_eq_of_le (by decide)
    _ = (rsv ++ df).extractLsb' 0 1 := BitVec.extractLsb'_append_eq_of_le (by decide)
    _ = df := BitVec.extractLsb'_append_eq_right

theorem halfBits_mf : halfBits (rsv ++ df ++ mf ++ fragoff) 13 13 = mf := by
  calc (rsv ++ df ++ mf ++ fragoff).extractLsb' 13 1
      = (rsv ++ df ++ mf).extractLsb' 0 1 := BitVec.extractLsb'_append_eq_of_le (by decide)
    _ = mf := BitVec.extractLsb'_append_eq_right

theorem halfBits_fragoff : halfBits (rsv ++ df ++ mf ++ fragoff) 12 0 = fragoff :=
  BitVec.extractLsb'_append_eq_right

end

/-! ### Decoding an encoded header, one reason for each field -/

/-- R91, R92. -/
theorem decodeIpv4_encodeIpv4 (h : IpHeader) (rest : List Byte) : decodeIpv4 (viewOf (encodeIpv4 h ++ rest)) = h := by
  obtain ⟨ver, ihl, dscp, ecn, totlen, id, rsv, df, mf, fragoff, ttl, proto, csum, src, dst⟩ := h
  simp only [decodeIpv4, IpHeader.mk.injEq]
  have flags := be16_halfBytes (rsv ++ df ++ mf ++ fragoff)
  exact ⟨BitVec.extractLsb'_append_eq_left, BitVec.extractLsb'_append_eq_right,
    BitVec.extractLsb'_append_eq_left, BitVec.extractLsb'_append_eq_right,
    be16_halfBytes totlen, be16_halfBytes id,
    (congrArg (halfBits · 15 15) flags).trans (halfBits_rsv ..),
    (congrArg (halfBits · 14 14) flags).trans (halfBits_df ..),
    (congrArg (halfBits · 13 13) flags).trans (halfBits_mf ..),
    (congrArg (halfBits · 12 0) flags).trans (halfBits_fragoff ..),
    rfl, rfl, be16_halfBytes csum, be32_wordBytes src, be32_wordBytes dst⟩

/-- R93. -/
theorem decodeIcmp_encodeIcmp (h : IcmpHeader) (rest : List Byte) : decodeIcmp (viewOf (encodeIcmp h ++ rest)) = h := by
  obtain ⟨type, code, csum, restWord⟩ := h
  simp only [decodeIcmp, IcmpHeader.mk.injEq]
  exact ⟨rfl, rfl, be16_halfBytes csum, be32_wordBytes restWord⟩

/-- R94. -/
theorem decodeUdp_encodeUdp (h : UdpHeader) (rest : List Byte) : decodeUdp (viewOf (encodeUdp h ++ rest)) = h := by
  obtain ⟨sport, dport, len, csum⟩ := h
  simp only [decodeUdp, UdpHeader.mk.injEq]
  exact ⟨be16_halfBytes sport, be16_halfBytes dport, be16_halfBytes len, be16_halfBytes csum⟩

/-- R95, R96: the six unlisted bits do not count. -/
theorem decodeTcp_encodeTcp (gapA : BitVec 4) (gapB : BitVec 2) (h : TcpHeader) (rest : List Byte) :
    decodeTcp (viewOf (encodeTcp gapA gapB h ++ rest)) = h := by
  obtain ⟨sport, dport, seq, ack, doff, flags, win, csum, urgp⟩ := h
  simp only [decodeTcp, TcpHeader.mk.injEq]
  exact ⟨be16_halfBytes sport, be16_halfBytes dport, be32_wordBytes seq, be32_wordBytes ack,
    BitVec.extractLsb'_append_eq_left, BitVec.extractLsb'_append_eq_right,
    be16_halfBytes win, be16_halfBytes csum, be16_halfBytes urgp⟩

/-! ### Encoding a decoded header gives its bytes -/

/-- R91, R92. -/
theorem encodeIpv4_decodeIpv4 (v : Nat → Byte) : encodeIpv4 (decodeIpv4 v) = (List.range 20).map v := by
  rw [encodeIpv4, ver_append_ihl, dscp_append_ecn, flags_append_fragoff]
  simp only [decodeIpv4, halfBytes_be16, wordBytes_be32]
  rfl

/-- R93. -/
theorem encodeIcmp_decodeIcmp (v : Nat → Byte) : encodeIcmp (decodeIcmp v) = (List.range 8).map v := by
  simp only [encodeIcmp, decodeIcmp, halfBytes_be16, wordBytes_be32]
  rfl

/-- R94. -/
theorem encodeUdp_decodeUdp (v : Nat → Byte) : encodeUdp (decodeUdp v) = (List.range 8).map v := by
  simp only [encodeUdp, decodeUdp, halfBytes_be16]
  rfl

/-- R95, R96: the bytes come back once the six unlisted bits are put back too. -/
theorem encodeTcp_decodeTcp (v : Nat → Byte) :
    encodeTcp ((v 12).extractLsb 3 0) ((v 13).extractLsb 7 6) (decodeTcp v) = (List.range 20).map v := by
  rw [encodeTcp, doff_append_gap, gap_append_flags]
  simp only [decodeTcp, halfBytes_be16, wordBytes_be32]
  rfl

end Sys2Proof
end

section
/-! SUPPORT. Rows and selector values (spec/30_encoding.md R110, R111, spec/44_frame_sequencer.md R201), one selector register
at a time: what its value decodes to is well formed and encodes to that value. -/

namespace Sys2Proof

/-- R110. -/
theorem decodeCommand_encodes (c : BitVec 1) :
    (decodeCommand c).wf = true ∧ encode (decodeCommand c) = some (.cmd c) := by
  revert c; decide

/-- R201: of the eight phase values three select a row. -/
theorem decodePhase_encodes (p : BitVec 3) (i : Instr) (h : decodePhase p = .ok i) :
    i.wf = true ∧ encode i = some (.phase p) := by
  unfold decodePhase at h
  split_ifs at h with ipdec demux paychunk <;> cases h
  · exact ⟨rfl, ipdec ▸ rfl⟩
  · exact ⟨rfl, demux ▸ rfl⟩
  · exact ⟨rfl, paychunk ▸ rfl⟩

/-- R111: a number that no named row matches takes the default row. -/
theorem decodeProto_of_unnamed {p : Byte} (h : p ∉ namedProtocols) : decodeProto p = .decUnknown p := by
  simp only [namedProtocols, List.mem_cons, List.not_mem_nil, or_false, not_or] at h
  obtain ⟨icmp, igmp, tcp, udp, p41, ospf, sctp⟩ := h
  simp only [decodeProto, icmp, igmp, tcp, udp, p41, ospf, sctp, if_false]

/-- R111: the default row admits exactly the numbers no named row matches. -/
theorem wf_decUnknown (p : Byte) : (Instr.decUnknown p).wf = true ↔ p ∉ namedProtocols := by
  simp [Instr.wf]

/-- R111: the seven named numbers one by one, then all the others at once. -/
theorem decodeProto_encodes (p : Byte) : (decodeProto p).wf = true ∧ encode (decodeProto p) = some (.proto p) := by
  by_cases named : p ∈ namedProtocols
  · revert p; decide
  · rw [decodeProto_of_unnamed named]
    exact ⟨(wf_decUnknown p).mpr named, rfl⟩

/-- R110, R111, R201: from a selector value to its row and back. -/
theorem decodeSelector_encodes (v : Selector) (i : Instr) (h : decodeSelector v = .ok i) :
    i.wf = true ∧ encode i = some v := by
  cases v with
  | cmd c => cases h; exact decodeCommand_encodes c
  | phase p => exact decodePhase_encodes p i h
  | proto p => cases h; exact decodeProto_encodes p

/-- From a row to its selector value and back. Only the default row needs its well-formedness: its number must be one that
no named row takes. -/
theorem decodeSelector_encode (i : Instr) (v : Selector) (hwf : i.wf = true) (h : encode i = some v) :
    decodeSelector v = .ok i := by
  cases i <;> cases h
  case decUnknown p => exact congrArg Except.ok (decodeProto_of_unnamed ((wf_decUnknown p).mp hwf))
  all_goals rfl

end Sys2Proof
end

section
/-! PROOFS. The statements about selection, decoding and encoding (spec/30_encoding.md), each put together from the lemmas
about its format. -/

namespace Sys2Proof

/-- Settles O6, field by field one way and byte by byte the other. -/
theorem ipv4HeaderRoundTrip : Obligations.Ipv4HeaderRoundTrip := ⟨decodeIpv4_encodeIpv4, encodeIpv4_decodeIpv4⟩

/-- Settles O8: bytes 12 and 13 are the ones that hold unlisted bits. -/
theorem tcpHeaderRoundTrip : Obligations.TcpHeaderRoundTrip := ⟨decodeTcp_encodeTcp, encodeTcp_decodeTcp⟩

/-- Settles O7: every field is made of whole bytes. -/
theorem shortHeadersRoundTrip : Obligations.ShortHeadersRoundTrip :=
  ⟨decodeIcmp_encodeIcmp, encodeIcmp_decodeIcmp, decodeUdp_encodeUdp, encodeUdp_decodeUdp⟩

/-- Settles O5, one lemma for each direction. -/
theorem rowsAndSelectorsCorrespond : Obligations.RowsAndSelectorsCorrespond :=
  ⟨decodeSelector_encode, decodeSelector_encodes⟩

/-- Settles O4: each value is looked up in the table. -/
theorem selectorValuesDecode : Obligations.SelectorValuesDecode :=
  ⟨rfl, rfl, rfl, rfl, rfl, rfl, rfl, rfl, rfl, rfl, rfl, rfl⟩

end Sys2Proof
end

section
/-! SUPPORT. The IP header decoder (spec/40_ip_header_decoder.md R133 to R136): the outcome of each of its checks, what a fault
records in the three operations that make them, and the header as the primitives read it. -/

namespace Sys2Proof.Machine

variable {s : State} {p : Nat}

/-! ### The three checks in their order -/

/-- Check 1 (R133). -/
theorem ipCheck_fewer_than_20 (h : avail s p < 20) : ipCheck s p = some .truncIp := if_pos h

/-- Check 2 (R133). -/
theorem ipCheck_ihl_below_5 (h20 : 20 ≤ avail s p) (h : (rdBits s p 3 0).toNat < 5) : ipCheck s p = some .malformedIp := by
  rw [ipCheck, Config.ipHlenMin, if_neg h20.not_gt, if_pos h]

/-- Check 3 (R133). -/
theorem ipCheck_options_cut (h20 : 20 ≤ avail s p) (h5 : 5 ≤ (rdBits s p 3 0).toNat)
    (h : avail s p < (rdBits s p 3 0).toNat * 4) : ipCheck s p = some .truncIp := by
  rw [ipCheck, Config.ipHlenMin, if_neg h20.not_gt, if_neg h5.not_gt, if_pos h]

/-- A header that passes the three checks. -/
theorem ipCheck_passed (h20 : 20 ≤ avail s p) (h5 : 5 ≤ (rdBits s p 3 0).toNat)
    (hlen : (rdBits s p 3 0).toNat * 4 ≤ avail s p) : ipCheck s p = none := by
  rw [ipCheck, Config.ipHlenMin, if_neg h20.not_gt, if_neg h5.not_gt, if_neg hlen.not_gt]

/-! ### What the checks lead to -/

/-- IPDEC, FILTER and PARSE answer a failed check alike: by recording it (R136, R202, R220). -/
theorem exec_ipFault {i : Instr} {c : FaultCode} (hi : i = .ipdec ∨ i = .filter ∨ i = .parse)
    (hc : ipCheck s s.off = some c) : exec i s = .next (raiseIp c s.off s) := by
  obtain rfl | rfl | rfl := hi
  · rw [exec, execIpdec, ipdecStep, hc]
  · rw [exec, execFilter, filterStep, hc]
  · rw [exec, execParse, parseRun, hc]

/-- IPDEC accepts a header that passes the checks (R135). -/
theorem exec_ipdec_accepts (hc : ipCheck s s.off = none) : exec .ipdec s = .next (ipAccept s.off s) := by
  rw [exec, execIpdec, ipdecStep, hc]

/-- The header's fields as RDBITS, RD8, RD16 and RD32 read them off the frame (R134). -/
theorem ipHeaderAt_reads (s : State) (p : Nat) : ipHeaderAt s p = {
    ver := rdBits s p 7 4, ihl := rdBits s p 3 0, dscp := rdBits s (p + 1) 7 2, ecn := rdBits s (p + 1) 1 0
    totlen := rd16 s (p + 2), id := rd16 s (p + 4)
    rsv := halfBits (rd16 s (p + 6)) 15 15, df := halfBits (rd16 s (p + 6)) 14 14
    mf := halfBits (rd16 s (p + 6)) 13 13, fragoff := halfBits (rd16 s (p + 6)) 12 0
    ttl := rd8 s (p + 8), proto := rd8 s (p + 9), csum := rd16 s (p + 10)
    src := rd32 s (p + 12), dst := rd32 s (p + 16) } := rfl

end Sys2Proof.Machine
end

section
/-! PROOFS. The statements about the IP header decoder (spec/40_ip_header_decoder.md, spec/60_exceptions.md R236), from the
outcome of its checks and the header it reads. -/

namespace Sys2Proof.Machine

/-- Settles O26: the header is accepted, its fields are what the primitives read, and its length is IHL words. -/
theorem ipdecDecodesTheHeader : Obligations.IpdecDecodesTheHeader := by
  intro s h20 h5 hlen
  rw [exec_ipdec_accepts (ipCheck_passed h20 h5 hlen), ipAccept, ipHeaderAt_reads, wordsToBytes_toNat, ipRegsOf,
    wordsToBytes_eq]
  rfl

/-- Settles O27, check by check: the first that fails is recorded, whichever of the three operations makes it. -/
theorem ipFaultsAreRecorded : Obligations.IpFaultsAreRecorded := fun _ _ hi =>
  ⟨fun h => exec_ipFault hi (ipCheck_fewer_than_20 h),
    fun h20 h => exec_ipFault hi (ipCheck_ihl_below_5 h20 h),
    fun h20 h5 h => exec_ipFault hi (ipCheck_options_cut h20 h5 h)⟩

end Sys2Proof.Machine
end

section
/-! SUPPORT. LOOKUP, the protocol registry (spec/41_protocol_registry.md R150 to R154): the code and the display string of a
number's name, the number of each name, and how often each name occurs over the 256 numbers. -/

namespace Sys2Proof.Machine

variable {n : Byte} {c : ProtoName}

/-! ### What LOOKUP answers -/

/-- LOOKUP returns the name and writes nothing of the block (R150). -/
theorem exec_lookup (n : Byte) (s : State) : exec (.lookup n) s = .next { s with ret := .name (lookupName n) } := rfl

/-- The codes of R151, row by row. -/
theorem lookupName_code (n : Byte) : (lookupName n).code =
    if n = 1 then 1 else if n = 2 then 2 else if n = 6 then 3 else if n = 17 then 4
    else if n = 41 then 5 else if n = 89 then 6 else if n = 132 then 7 else 0 := by
  simp only [lookupName, apply_ite ProtoName.code]
  rfl

/-- The display strings of R151, row by row. -/
theorem lookupName_display (n : Byte) : (lookupName n).display =
    if n = 1 then "ICMP" else if n = 2 then "IGMP" else if n = 6 then "TCP" else if n = 17 then "UDP"
    else if n = 41 then Config.name41 else if n = 89 then "OSPF" else if n = 132 then "SCTP" else "UNDEFINED" := by
  simp only [lookupName, apply_ite ProtoName.display]
  rfl

/-! ### The number of a name -/

/-- The number R151 lists for a name; for UNDEFINED, which it lists none for, the unnamed number 0. -/
def ProtoName.number : ProtoName → Byte
  | .undefined => 0
  | .icmp => 1
  | .igmp => 2
  | .tcp => 6
  | .udp => 17
  | .p41 => 41
  | .ospf => 89
  | .sctp => 132

theorem lookupName_number (c : ProtoName) : lookupName c.number = c := by cases c <;> rfl

/-- A named number is the number of its name. -/
theorem number_lookupName (h : lookupName n ≠ .undefined) : (lookupName n).number = n := by
  unfold lookupName at h ⊢
  split_ifs at h ⊢ with h1 h2 h6 h17 h41 h89 h132
  · exact h1.symm
  · exact h2.symm
  · exact h6.symm
  · exact h17.symm
  · exact h41.symm
  · exact h89.symm
  · exact h132.symm
  · exact absurd rfl h

/-- A name other than UNDEFINED has exactly one number (R154). -/
theorem lookupName_eq_iff (hc : c ≠ .undefined) : lookupName n = c ↔ n = c.number := by
  constructor
  · rintro rfl
    exact (number_lookupName hc).symm
  · rintro rfl
    exact lookupName_number c

/-! ### The names over the 256 numbers -/

/-- The names of the numbers 0 to 255, in order. -/
def namesInOrder : List ProtoName := (List.range 256).map fun n => lookupName (BitVec.ofNat 8 n)

/-- The preimages of a name, counted: the number of its occurrences. -/
theorem length_filter_namesInOrder (c : ProtoName) :
    (namesInOrder.filter fun r => decide (r = c)).length = namesInOrder.count c := by
  rw [List.count_eq_length_filter]
  rfl

theorem count_namesInOrder_named (hc : c ≠ .undefined) : namesInOrder.count c = 1 := by
  have hpre : ∀ k ∈ List.range 256, lookupName (BitVec.ofNat 8 k) = c ↔ k = c.number.toNat := by
    intro k hk
    rw [lookupName_eq_iff hc, ← BitVec.toNat_inj, BitVec.toNat_ofNat, Nat.mod_eq_of_lt (List.mem_range.mp hk)]
  calc namesInOrder.count c
      = (List.range 256).countP fun k => lookupName (BitVec.ofNat 8 k) == c := List.countP_map
    _ = (List.range 256).count c.number.toNat := List.countP_congr (by simpa using hpre)
    _ = 1 := List.count_eq_one_of_mem List.nodup_range (List.mem_range.mpr c.number.isLt)

/-- The eight name codes (R113). -/
def allNames : Finset ProtoName := {.undefined, .icmp, .igmp, .tcp, .udp, .p41, .ospf, .sctp}

theorem mem_allNames (c : ProtoName) : c ∈ allNames := by cases c <;> decide

/-- UNDEFINED has what the seven names, each occurring once, leave of the 256 numbers. -/
theorem count_namesInOrder_undefined : namesInOrder.count .undefined = 249 := by
  have htotal : ∑ c ∈ allNames, namesInOrder.count c = 256 := by
    simpa [namesInOrder] using Multiset.sum_count_eq_card (m := namesInOrder) fun c _ => mem_allNames c
  simp [allNames, count_namesInOrder_named] at htotal
  omega

end Sys2Proof.Machine
end

section
/-! PROOFS. The statements about the protocol registry (spec/41_protocol_registry.md), from its table and the number of each
name. -/

namespace Sys2Proof.Machine

/-- Settles O24: the returned name is LOOKUP's, with the codes and the strings of its table. -/
theorem lookupIsTheRegistry : Obligations.LookupIsTheRegistry := fun n s =>
  ⟨lookupName n, exec_lookup n s, lookupName_code n, lookupName_display n⟩

/-- Settles O25: a name's occurrences are counted through its number, and the seven corner cases are looked up. -/
theorem lookupPreimages : Obligations.LookupPreimages := by
  refine ⟨fun c hc => ?_, ?_, ?_⟩
  · exact (length_filter_namesInOrder c).trans (count_namesInOrder_named hc)
  · exact (length_filter_namesInOrder .undefined).trans count_namesInOrder_undefined
  · rintro n (rfl | rfl | rfl | rfl | rfl | rfl | rfl) <;> rfl

end Sys2Proof.Machine
end

section
/-! SUPPORT. The transport demultiplexer and the transport decoders (spec/42_transport_demux.md R160 to R177): DEMUX's four
cases, the outcome of each decoder's checks, and the states that a fault, a decoded header and DEC_UNKNOWN lead to. -/

namespace Sys2Proof.Machine

variable {s : State} {p : Byte} {q n : Nat} {c : FaultCode}

/-! ### DEMUX and DEC_UNKNOWN -/

/-- DEC_UNKNOWN's registers and the payload entry (R177, R206). -/
theorem unknownStep_writes (s : State) : unknownStep s = { s with
    unsup := true, l4Hlen := some 0, payOff := some s.off, payLen := some (s.flen - s.off), phase := .payload } := rfl

/-- Every number but 1, 6 and 17 selects no decoder (R160). -/
theorem tagOf_unlisted (h1 : p ≠ 1) (h6 : p ≠ 6) (h17 : p ≠ 17) : tagOf p = .unknown := by
  rw [tagOf, if_neg h1, if_neg h6, if_neg h17]

/-- DEMUX's four cases: 1, 6 and 17 leave their decoder to phase L4DEC, every other number runs DEC_UNKNOWN in the same step
(R160, R203). -/
theorem demuxStep_four_cases (p : Byte) (s : State) : demuxStep p s =
    if p = 1 then { s with l4Tag := some .icmp, phase := .l4dec }
    else if p = 6 then { s with l4Tag := some .tcp, phase := .l4dec }
    else if p = 17 then { s with l4Tag := some .udp, phase := .l4dec }
    else unknownStep { s with l4Tag := some .unknown } := by
  split_ifs with h1 h6 h17
  · rw [h1]; rfl
  · rw [h6]; rfl
  · rw [h17]; rfl
  · exact if_pos (tagOf_unlisted h1 h6 h17)

theorem exec_demux (h : s.ip.proto = some p) : exec .demux s = .next (demuxStep p s) := by
  rw [exec, execDemux, h]

/-- Where IP_PROTO holds no value, DEMUX uses up a free number (log 16). -/
theorem exec_demux_no_proto (h : s.ip.proto = none) :
    exec .demux s = .next (demuxStep (Config.freeProto s.draws) (draw s)) := by
  rw [exec, execDemux, h]

/-! ### The checks of the decoders in their order -/

/-- A fixed header of n bytes is cut (R165, R168). -/
theorem fixedCheck_cut (h : avail s q < n) : fixedCheck s q n = some .truncL4 := if_pos h

/-- A fixed header of n bytes fits (R165, R168). -/
theorem fixedCheck_passed (h : n ≤ avail s q) : fixedCheck s q n = none := if_neg h.not_gt

/-- Check 1 (R172). -/
theorem tcpCheck_fewer_than_20 (h : avail s q < 20) : tcpCheck s q = some .truncL4 := if_pos h

/-- Check 2 (R172). -/
theorem tcpCheck_doff_below_5 (h20 : 20 ≤ avail s q) (h : (rdBits s (q + 12) 7 4).toNat < 5) :
    tcpCheck s q = some .malformedL4 := by
  rw [tcpCheck, Config.tcpHlenMin, if_neg h20.not_gt, if_pos h]

/-- Check 3 (R172). -/
theorem tcpCheck_options_cut (h20 : 20 ≤ avail s q) (h5 : 5 ≤ (rdBits s (q + 12) 7 4).toNat)
    (h : avail s q < (rdBits s (q + 12) 7 4).toNat * 4) : tcpCheck s q = some .truncL4 := by
  rw [tcpCheck, Config.tcpHlenMin, if_neg h20.not_gt, if_neg h5.not_gt, if_pos h]

/-- A header that passes the three checks. -/
theorem tcpCheck_passed (h20 : 20 ≤ avail s q) (h5 : 5 ≤ (rdBits s (q + 12) 7 4).toNat)
    (hlen : (rdBits s (q + 12) 7 4).toNat * 4 ≤ avail s q) : tcpCheck s q = none := by
  rw [tcpCheck, Config.tcpHlenMin, if_neg h20.not_gt, if_neg h5.not_gt, if_neg hlen.not_gt]

/-! ### What a failed check leads to -/

/-- The fault record, then the payload phase at the undecoded header (R164, R206, R237). -/
theorem enterPayload_raiseL4 (c : FaultCode) (s : State) : enterPayload (raiseL4 c s.off s) = { s with
    fault := c, faultOff := some s.off, l4Hlen := some 0
    payOff := some s.off, payLen := some (s.flen - s.off), phase := .payload } := rfl

theorem exec_decIcmp_fault (hc : fixedCheck s s.off 8 = some c) :
    exec .decIcmp s = .next (enterPayload (raiseL4 c s.off s)) := by
  rw [exec, execDecIcmp, icmpDecode, Config.icmpHlen, hc]

theorem exec_decUdp_fault (hc : fixedCheck s s.off 8 = some c) :
    exec .decUdp s = .next (enterPayload (raiseL4 c s.off s)) := by
  rw [exec, execDecUdp, udpDecode, Config.udpHlen, hc]

theorem exec_decTcp_fault (hc : tcpCheck s s.off = some c) :
    exec .decTcp s = .next (enterPayload (raiseL4 c s.off s)) := by
  rw [exec, execDecTcp, tcpDecode, hc]

/-! ### What passed checks lead to -/

/-- The registers common to the decoders, then the payload phase behind the header (R163, R206). -/
theorem enterPayload_consumeL4 (n : BitVec 6) (s : State) : enterPayload (consumeL4 n s) = { s with
    l4Valid := true, l4Hlen := some n, off := s.off + n.toNat
    payOff := some (s.off + n.toNat), payLen := some (s.flen - (s.off + n.toNat)), phase := .payload } := rfl

theorem exec_decIcmp_decodes (hc : fixedCheck s s.off 8 = none) :
    exec .decIcmp s = .next (enterPayload (consumeL4 8 { s with icmp := icmpRegsOf (decodeIcmp (viewAt s s.off)) })) := by
  rw [exec, execDecIcmp, icmpDecode, Config.icmpHlen, hc]

theorem exec_decUdp_decodes (hc : fixedCheck s s.off 8 = none) :
    exec .decUdp s = .next (enterPayload (consumeL4 8 { s with udp := udpRegsOf (decodeUdp (viewAt s s.off)) })) := by
  rw [exec, execDecUdp, udpDecode, Config.udpHlen, hc]

theorem exec_decTcp_decodes (hc : tcpCheck s s.off = none) :
    exec .decTcp s = .next (enterPayload (consumeL4 (wordsToBytes (tcpHeaderAt s s.off).doff)
      { s with tcp := tcpRegsOf (tcpHeaderAt s s.off) })) := by
  rw [exec, execDecTcp, tcpDecode, hc]

/-! ### The headers as RD8, RD16, RD32 and RDBITS read them off the frame -/

/-- Format ICMP (R165). -/
theorem decodeIcmp_reads (s : State) (q : Nat) : decodeIcmp (viewAt s q) =
    ⟨rd8 s q, rd8 s (q + 1), rd16 s (q + 2), rd32 s (q + 4)⟩ := rfl

/-- Format UDP (R168). -/
theorem decodeUdp_reads (s : State) (q : Nat) : decodeUdp (viewAt s q) =
    ⟨rd16 s q, rd16 s (q + 2), rd16 s (q + 4), rd16 s (q + 6)⟩ := rfl

/-- Format TCP (R173): of bytes 12 and 13, the data offset and the six flags only. -/
theorem tcpHeaderAt_reads (s : State) (q : Nat) : tcpHeaderAt s q = {
    sport := rd16 s q, dport := rd16 s (q + 2), seq := rd32 s (q + 4), ack := rd32 s (q + 8)
    doff := rdBits s (q + 12) 7 4, flags := rdBits s (q + 13) 5 0
    win := rd16 s (q + 14), csum := rd16 s (q + 16), urgp := rd16 s (q + 18) } := rfl

end Sys2Proof.Machine
end

section
/-! PROOFS. The statements about DEMUX and the transport decoders (spec/42_transport_demux.md, spec/44_frame_sequencer.md R203,
R204, R206), from DEMUX's cases, the outcome of the decoders' checks and the headers they read. -/

namespace Sys2Proof.Machine

/-- Settles O29: the numbers 1, 6 and 17 have a decoder, every other runs DEC_UNKNOWN. -/
theorem demuxSelectsTheDecoder : Obligations.DemuxSelectsTheDecoder := by
  intro s p hp
  rw [exec_demux hp, demuxStep_four_cases]
  refine ⟨?_, ?_, ?_, fun h1 h6 h17 => ?_⟩
  · rintro rfl; rfl
  · rintro rfl; rfl
  · rintro rfl; rfl
  · rw [if_neg h1, if_neg h6, if_neg h17, unknownStep_writes]

/-- Settles O33: the check decides between the fault record and the header's four registers. -/
theorem icmpDecoderResult : Obligations.IcmpDecoderResult := by
  refine fun s => ⟨fun h => ?_, fun h => ?_⟩
  · rw [exec_decIcmp_fault (fixedCheck_cut h), enterPayload_raiseL4]
  · rw [exec_decIcmp_decodes (fixedCheck_passed h), enterPayload_consumeL4, decodeIcmp_reads]
    rfl

/-- Settles O34: the check decides between the fault record and the header's four registers; UDP_LEN decides nothing. -/
theorem udpDecoderResult : Obligations.UdpDecoderResult := by
  refine fun s => ⟨fun h => ?_, fun h => ?_⟩
  · rw [exec_decUdp_fault (fixedCheck_cut h), enterPayload_raiseL4]
  · rw [exec_decUdp_decodes (fixedCheck_passed h), enterPayload_consumeL4, decodeUdp_reads]
    rfl

/-- Settles O35: the header is decoded, its fields are what the primitives read, and its length is doff words. -/
theorem tcpDecoderResult : Obligations.TcpDecoderResult := by
  intro s h20 h5 hlen
  rw [exec_decTcp_decodes (tcpCheck_passed h20 h5 hlen), enterPayload_consumeL4, wordsToBytes_toNat, wordsToBytes_eq,
    tcpHeaderAt_reads, tcpRegsOf]

/-- Settles O36, check by check: the first that fails is recorded, and the payload starts at the undecoded header. -/
theorem tcpFaultsAreRecorded : Obligations.TcpFaultsAreRecorded := by
  refine fun s => ⟨fun h => ?_, fun h20 h => ?_, fun h20 h5 h => ?_⟩
  · rw [exec_decTcp_fault (tcpCheck_fewer_than_20 h), enterPayload_raiseL4]
  · rw [exec_decTcp_fault (tcpCheck_doff_below_5 h20 h), enterPayload_raiseL4]
  · rw [exec_decTcp_fault (tcpCheck_options_cut h20 h5 h), enterPayload_raiseL4]

/-- Settles O30: DEMUX's four cases on the free number, after it is counted. -/
theorem demuxWithoutProtocolRuns : Obligations.DemuxWithoutProtocolRuns := by
  intro s hp
  rw [exec_demux_no_proto hp, demuxStep_four_cases, unknownStep_writes]
  rfl

/-- Settles O31: each of the five rows is the one step of DEC_UNKNOWN. -/
theorem unknownProtocolIsNoted : Obligations.UnknownProtocolIsNoted := by
  rintro i s (rfl | rfl | rfl | rfl | ⟨p, rfl⟩) <;> exact congrArg Host.Outcome.next (unknownStep_writes s)

end Sys2Proof.Machine
end

section
/-! SUPPORT. The dump line character by character (spec/43_dump_formatter.md R191 to R193): the digits, the character of each
column's slot, and the two columns and the gutter inside the line. -/

namespace Sys2Proof.Machine

variable {data : List Byte} {k i j : Nat}

/-- DUMPLINE on a line's worth of bytes returns their line and changes nothing else (R190). -/
theorem exec_dumpline_in_range (s : State) (h : data.length ≤ 16) :
    exec (.dumpline data) s = .next { s with ret := .line (dumpLine data) } :=
  if_pos (dumpLengthOk_iff.2 h)

/-! ### One byte -/

/-- The two ranges of R192's hexdigit. -/
theorem hexDigit_toNat (v : BitVec 4) :
    (hexDigit v).toNat = if v.toNat < 10 then 0x30 + v.toNat else 0x61 + v.toNat - 10 := by
  unfold hexDigit
  split <;> bv_omega

theorem toNat_highNibble (b : Byte) : (b.extractLsb 7 4).toNat = b.toNat / 16 :=
  (byteBits_toNat b 7 4).trans (by omega)

theorem toNat_lowNibble (b : Byte) : (b.extractLsb 3 0).toNat = b.toNat % 16 :=
  (byteBits_toNat b 3 0).trans (by omega)

@[simp] theorem hexGroup_length (o : Option Byte) : (hexGroup o).length = 3 := by cases o <;> rfl

/-! ### The columns, slot by slot -/

theorem hexColumn_succ (k : Nat) (data : List Byte) :
    hexColumn (k + 1) data = hexGroup data[0]? ++ hexColumn k data.tail := by cases data <;> rfl

theorem asciiColumn_succ (k : Nat) (data : List Byte) :
    asciiColumn (k + 1) data = asciiSlot data[0]? :: asciiColumn k data.tail := by cases data <;> rfl

@[simp] theorem hexColumn_length (k : Nat) (data : List Byte) : (hexColumn k data).length = 3 * k := by
  induction k generalizing data with
  | zero => rfl
  | succ k ih =>
    rw [hexColumn_succ, List.length_append, hexGroup_length, ih]
    omega

@[simp] theorem asciiColumn_length (k : Nat) (data : List Byte) : (asciiColumn k data).length = k := by
  induction k generalizing data with
  | zero => rfl
  | succ k ih => rw [asciiColumn_succ, List.length_cons, ih]

/-- Character 3i + j of the hex column is character j of group i. -/
theorem hexColumn_get (hi : i < k) (hj : j < 3) : (hexColumn k data)[3 * i + j]? = (hexGroup data[i]?)[j]? := by
  induction k generalizing data i with
  | zero => omega
  | succ k ih =>
    rw [hexColumn_succ]
    cases i with
    | zero => rw [Nat.mul_zero, Nat.zero_add, List.getElem?_append_left (by simpa using hj)]
    | succ i =>
      rw [List.getElem?_append_right (by rw [hexGroup_length]; omega), hexGroup_length,
        show 3 * (i + 1) + j - 3 = 3 * i + j by omega, ih (by omega), List.getElem?_tail]

/-- Character i of the ASCII column is slot i. -/
theorem asciiColumn_get (hi : i < k) : (asciiColumn k data)[i]? = some (asciiSlot data[i]?) := by
  induction k generalizing data i with
  | zero => omega
  | succ k ih =>
    rw [asciiColumn_succ]
    cases i with
    | zero => rfl
    | succ i => rw [List.getElem?_cons_succ, ih (by omega), List.getElem?_tail]

/-! ### The line -/

/-- The three columns with their widths (R191). -/
theorem dumpLine_columns (data : List Byte) :
    dumpLine data = hexColumn 16 data ++ (List.replicate 10 space ++ asciiColumn 16 data) := List.append_assoc ..

theorem dumpLine_length (data : List Byte) : (dumpLine data).length = 74 := by simp [dumpLine_columns]

/-- Characters 0 to 47 are the hex column. -/
theorem dumpLine_hex (hi : i < 16) (hj : j < 3) : (dumpLine data)[3 * i + j]? = (hexGroup data[i]?)[j]? := by
  rw [dumpLine_columns, List.getElem?_append_left (by rw [hexColumn_length]; omega), hexColumn_get hi hj]

/-- Characters 48 to 57 are spaces. -/
theorem dumpLine_gutter (h48 : 48 ≤ j) (h58 : j < 58) : (dumpLine data)[j]? = some space := by
  have hj : j - 48 < 10 := by omega
  rw [dumpLine_columns, List.getElem?_append_right (by rwa [hexColumn_length]), hexColumn_length,
    List.getElem?_append_left (by rwa [List.length_replicate]), List.getElem?_replicate_of_lt hj]

/-- Characters 58 to 73 are the ASCII column. -/
theorem dumpLine_ascii (hi : i < 16) : (dumpLine data)[58 + i]? = some (asciiSlot data[i]?) := by
  rw [dumpLine_columns, List.getElem?_append_right (by rw [hexColumn_length]; omega), hexColumn_length,
    show 58 + i - 3 * 16 = 10 + i by omega, List.getElem?_append_right (by rw [List.length_replicate]; omega),
    List.length_replicate, Nat.add_sub_cancel_left, asciiColumn_get hi]

end Sys2Proof.Machine
end

section
/-! PROOFS. The statement about DUMPLINE (spec/43_dump_formatter.md R191 to R193), from the line's characters by column. -/

namespace Sys2Proof.Machine

/-- Settles O47: slots below the length show their bytes, the others are blank, and so is the gutter. -/
theorem dumplineLayout : Obligations.DumplineLayout := by
  refine fun s data _ h16 => ⟨dumpLine data, exec_dumpline_in_range s h16, dumpLine_length data,
    fun i b hb => ?_, fun i hn hi => ?_, fun j => dumpLine_gutter⟩
  · have hi : i < 16 := (List.getElem?_eq_some_iff.1 hb).1.trans_le h16
    have hhex {j : Nat} (hj : j < 3) : (dumpLine data)[3 * i + j]? = (hexGroup (some b))[j]? := hb ▸ dumpLine_hex hi hj
    refine ⟨⟨_, hhex (j := 0) (by decide), ?_⟩, ⟨_, hhex (j := 1) (by decide), ?_⟩, hhex (by decide), ?_⟩
    · rw [hexDigit_toNat, toNat_highNibble]
    · rw [hexDigit_toNat, toNat_lowNibble]
    · rw [dumpLine_ascii hi, hb, asciiSlot]
  · have hb : data[i]? = none := List.getElem?_eq_none hn
    have hhex {j : Nat} (hj : j < 3) : (dumpLine data)[3 * i + j]? = (hexGroup none)[j]? := hb ▸ dumpLine_hex hi hj
    refine ⟨hhex (j := 0) (by decide), hhex (by decide), hhex (by decide), ?_⟩
    rw [dumpLine_ascii hi, hb]
    rfl

end Sys2Proof.Machine
end

section
/-! SUPPORT. The payload phase in closed form (spec/44_frame_sequencer.md R205, R207): the state after each chunk, the end of
the phase, and the bytes of the chunk table. -/

namespace Sys2Proof.Machine

variable {s : State} {i k : Nat}

/-! ### The chunk table, row by row -/

/-- Row k of the chunk table of a payload of pl bytes at offset po (R207). -/
def tableChunk (s : State) (po pl k : Nat) : Chunk :=
  ⟨k, po + 16 * k, min 16 (pl - 16 * k), sliceBytes s (po + 16 * k) (min 16 (pl - 16 * k))⟩

/-- The first i rows of the chunk table. -/
def tableTo (s : State) (po pl i : Nat) : List Chunk := (List.range i).map (tableChunk s po pl)

theorem tableTo_succ (s : State) (po pl i : Nat) :
    tableTo s po pl (i + 1) = tableTo s po pl i ++ [tableChunk s po pl i] := by
  simp [tableTo, List.range_succ]

theorem chunkTable_eq_tableTo (s : State) (po pl : Nat) : chunkTable s po pl = tableTo s po pl ((pl + 15) / 16) := rfl

theorem chunkTable_length (s : State) (po pl : Nat) : (chunkTable s po pl).length = (pl + 15) / 16 := by
  simp [chunkTable]

/-- The first i rows hold the payload's first 16 i bytes, or all of them (R208 (a)). -/
theorem chunkBytes_tableTo (s : State) (po pl : Nat) (hi : 16 * i < pl + 16) :
    chunkBytes (tableTo s po pl i) = sliceBytes s po (min pl (16 * i)) := by
  induction i with
  | zero => simp [tableTo, chunkBytes, sliceBytes, Memory.slice]
  | succ i ih =>
    have hbefore : min pl (16 * i) = 16 * i := by omega
    have hafter : min pl (16 * (i + 1)) = 16 * i + min 16 (pl - 16 * i) := by omega
    have hrow : chunkBytes (tableTo s po pl (i + 1)) =
        chunkBytes (tableTo s po pl i) ++ sliceBytes s (po + 16 * i) (min 16 (pl - 16 * i)) := by
      simp [tableTo_succ, chunkBytes, tableChunk]
    rw [hrow, ih (by omega), hbefore, hafter]
    exact Memory.slice_append s.frame po (16 * i) _

/-- The chunk table's bytes are the payload's, none skipped and none repeated (R208 (a)). -/
theorem chunkBytes_chunkTable (s : State) (po pl : Nat) : chunkBytes (chunkTable s po pl) = sliceBytes s po pl := by
  rw [chunkTable_eq_tableTo, chunkBytes_tableTo s po pl (by omega), show min pl (16 * ((pl + 15) / 16)) = pl by omega]

/-! ### The state after each chunk -/

/-- The state after i chunks of the payload that starts at the cursor of s (R205). -/
def emitted (i : Nat) (s : State) : State :=
  { s with chunks := tableTo s s.off (s.flen - s.off) i, chCount := i, off := min s.flen (s.off + 16 * i) }

theorem emitted_zero (hoff : s.off ≤ s.flen) (hch : s.chunks = []) (hcount : s.chCount = 0) : emitted 0 s = s := by
  have hcursor : min s.flen (s.off + 16 * 0) = s.off := by omega
  have hstream : tableTo s s.off (s.flen - s.off) 0 = s.chunks := hch.symm
  rw [emitted, hcursor, hstream, ← hcount]

/-- While bytes are left the payload step emits the next row of the table (R205). -/
theorem payStep_emitted (hi : s.off + 16 * i < s.flen) : payStep (emitted i s) = emitted (i + 1) s := by
  have hcursor : (emitted i s).off = s.off + 16 * i := by simp only [emitted]; omega
  have hsize : chunkSize (emitted i s) = min 16 (s.flen - s.off - 16 * i) := by
    rw [chunkSize, hcursor, Nat.sub_sub]
    rfl
  have hchunk : nextChunk (emitted i s) = tableChunk s s.off (s.flen - s.off) i := by
    rw [nextChunk, hcursor, hsize]
    rfl
  have hnext : (emitted i s).off + chunkSize (emitted i s) = min s.flen (s.off + 16 * (i + 1)) := by
    rw [hcursor, hsize]
    omega
  obtain ⟨hend, -⟩ | ⟨-, e, -⟩ := payStep_cases (emitted i s)
  · exact absurd hend (Nat.not_le.2 (hcursor.trans_lt hi))
  · rw [e, emitChunk, hchunk, hnext, emitted, emitted, tableTo_succ]

/-- In DONE no payload step is taken (R201). -/
theorem payLoop_of_done (k : Nat) (hp : s.phase = .done) : payLoop k s = s := by
  cases k with
  | zero => rfl
  | succ k => rw [payLoop, if_pos hp]

theorem payLoop_of_payload (k : Nat) (hp : s.phase = .payload) : payLoop (k + 1) s = payLoop k (payStep s) := by
  rw [payLoop, hp, if_neg (by decide)]

/-- From the state after i chunks the payload phase ends in the state after all of them, in DONE (R205, R207). -/
theorem payLoop_emitted (hp : s.phase = .payload) (hoff : s.off ≤ s.flen) (hi : 16 * i < s.flen - s.off + 16)
    (hk : (s.flen - s.off + 15) / 16 < i + k) :
    payLoop k (emitted i s) = { emitted ((s.flen - s.off + 15) / 16) s with phase := .done } := by
  induction k generalizing i with
  | zero => omega
  | succ k ih =>
    rw [payLoop_of_payload (s := emitted i s) k hp]
    by_cases hmore : s.off + 16 * i < s.flen
    · rw [payStep_emitted hmore]
      exact ih (by omega) (by omega)
    · have hlast : i = (s.flen - s.off + 15) / 16 := by omega
      have hend : (emitted i s).flen ≤ (emitted i s).off := by simp only [emitted]; omega
      rw [payStep, if_pos hend, payLoop_of_done k rfl, hlast]

/-- The payload phase, entered with nothing emitted, ends in its closed form (R206, R207). -/
theorem payAll_enterPayload (hoff : s.off ≤ s.flen) (hch : s.chunks = []) (hcount : s.chCount = 0) :
    payAll (enterPayload s) = closedPayload s.off s := by
  have hall := payLoop_emitted (s := enterPayload s) (i := 0) (k := s.flen - s.off + 1) rfl hoff
    (by omega) (by simp only [enterPayload_flen, enterPayload_off]; omega)
  rw [emitted_zero (s := enterPayload s) hoff hch hcount] at hall
  have hcursor : min s.flen (s.off + 16 * ((s.flen - s.off + 15) / 16)) = s.flen := by omega
  refine hall.trans ?_
  simp only [emitted, enterPayload_flen, enterPayload_off, hcursor]
  rfl

end Sys2Proof.Machine
end

section
/-! SUPPORT. The transport part and the whole PARSE in closed form (spec/44_frame_sequencer.md R203, R204, R207): each decoder,
then the payload it leaves, is its case of R207. -/

namespace Sys2Proof.Machine

variable {s : State} {p : Byte} {q : Nat} {c : FaultCode}

/-! ### The cases of R207's transport part -/

/-- A transport fault in R207: the fault record, and the payload at the undecoded header. -/
def closedFault (c : FaultCode) (g : L4Tag) (q : Nat) (s : State) : State :=
  closedPayload q { s with l4Tag := some g, fault := c, faultOff := some q, l4Hlen := some 0 }

/-- A decoded transport header of n bytes in R207: its variant's record, and the payload behind it. -/
def closedDecoded (n : BitVec 6) (g : L4Tag) (rt : TcpRegs) (ru : UdpRegs) (ri : IcmpRegs) (q : Nat) (s : State) : State :=
  closedPayload (q + n.toNat)
    { s with l4Tag := some g, l4Valid := true, l4Hlen := some n, tcp := rt, udp := ru, icmp := ri }

/-- DEC_UNKNOWN in R207: the event, and the payload at the cursor. -/
def closedUnknown (q : Nat) (s : State) : State :=
  closedPayload q { s with l4Tag := some .unknown, unsup := true, l4Hlen := some 0 }

theorem closedTransport_icmp (s : State) (q : Nat) : closedTransport 1 q s =
    if s.flen - q < 8 then closedFault .truncL4 .icmp q s
    else closedDecoded 8 .icmp s.tcp s.udp (icmpRegsOf (decodeIcmp (viewAt s q))) q s := rfl

theorem closedTransport_udp (s : State) (q : Nat) : closedTransport 17 q s =
    if s.flen - q < 8 then closedFault .truncL4 .udp q s
    else closedDecoded 8 .udp s.tcp (udpRegsOf (decodeUdp (viewAt s q))) s.icmp q s := rfl

theorem closedTransport_tcp (s : State) (q : Nat) : closedTransport 6 q s =
    if s.flen - q < 20 then closedFault .truncL4 .tcp q s
    else if (rdBits s (q + 12) 7 4).toNat < 5 then closedFault .malformedL4 .tcp q s
    else if (rdBits s (q + 12) 7 4).toNat * 4 > s.flen - q then closedFault .truncL4 .tcp q s
    else closedDecoded (wordsToBytes (tcpHeaderAt s q).doff) .tcp (tcpRegsOf (tcpHeaderAt s q)) s.udp s.icmp q s := by
  rw [closedDecoded, wordsToBytes_toNat, wordsToBytes_eq, tcpHeaderAt_doff, Nat.mul_comm]
  rfl

theorem closedTransport_unknown (hp : tagOf p = .unknown) (s : State) (q : Nat) :
    closedTransport p q s = closedUnknown q s := by
  have h1 : p ≠ 1 := by rintro rfl; cases hp
  have h6 : p ≠ 6 := by rintro rfl; cases hp
  have h17 : p ≠ 17 := by rintro rfl; cases hp
  rw [closedTransport, if_neg h1, if_neg h17, if_neg h6]
  rfl

/-- The cursor and the phase before the payload record do not count: it writes both. -/
theorem closedTransport_congr (p : Byte) (q off : Nat) (phase : Phase) (s : State) :
    closedTransport p q { s with off := off, phase := phase } = closedTransport p q s := rfl

/-! ### Each decoder, then the payload -/

/-- What DEMUX leaves where it selects a decoder (R160, R203). -/
def selected (g : L4Tag) (s : State) : State := { s with l4Tag := some g, phase := .l4dec }

/-- DEMUX knows the numbers 1, 6 and 17, and has one answer to all others (R160). -/
theorem protocol_cases (p : Byte) : p = 1 ∨ p = 6 ∨ p = 17 ∨ tagOf p = .unknown := by
  by_cases h1 : p = 1
  · exact .inl h1
  by_cases h6 : p = 6
  · exact .inr (.inl h6)
  by_cases h17 : p = 17
  · exact .inr (.inr (.inl h17))
  · exact .inr (.inr (.inr (tagOf_unlisted h1 h6 h17)))

section

variable (hoff : s.off ≤ s.flen) (hch : s.chunks = []) (hcount : s.chCount = 0)
include hoff hch hcount

/-- A decoder that records a fault, then the payload at the undecoded header (R164, R206). -/
theorem payAll_fault {g : L4Tag} (e : decoderStep g (selected g s) = enterPayload (raiseL4 c s.off (selected g s))) :
    payAll (decoderStep g (selected g s)) = closedFault c g s.off s :=
  (congrArg payAll e).trans (payAll_enterPayload (s := raiseL4 c s.off (selected g s)) hoff hch hcount)

/-- A decoder that decodes a header of n bytes, then the payload behind it (R163, R206). -/
theorem payAll_decoded {g : L4Tag} {n : BitVec 6} {rt : TcpRegs} {ru : UdpRegs} {ri : IcmpRegs}
    (hn : n.toNat ≤ s.flen - s.off)
    (e : decoderStep g (selected g s) =
      enterPayload (consumeL4 n { selected g s with tcp := rt, udp := ru, icmp := ri })) :
    payAll (decoderStep g (selected g s)) = closedDecoded n g rt ru ri s.off s := by
  have hend : s.off + n.toNat ≤ s.flen := by omega
  exact (congrArg payAll e).trans
    (payAll_enterPayload (s := consumeL4 n { selected g s with tcp := rt, udp := ru, icmp := ri }) hend hch hcount)

theorem payAll_icmp : payAll (decoderStep .icmp (selected .icmp s)) = closedTransport 1 s.off s := by
  rw [closedTransport_icmp]
  split_ifs with h
  · exact payAll_fault hoff hch hcount (Host.Outcome.next.inj (exec_decIcmp_fault (fixedCheck_cut h)))
  · exact payAll_decoded hoff hch hcount (n := 8) (Nat.not_lt.1 h)
      (Host.Outcome.next.inj (exec_decIcmp_decodes (fixedCheck_passed (Nat.not_lt.1 h))))

theorem payAll_udp : payAll (decoderStep .udp (selected .udp s)) = closedTransport 17 s.off s := by
  rw [closedTransport_udp]
  split_ifs with h
  · exact payAll_fault hoff hch hcount (Host.Outcome.next.inj (exec_decUdp_fault (fixedCheck_cut h)))
  · exact payAll_decoded hoff hch hcount (n := 8) (Nat.not_lt.1 h)
      (Host.Outcome.next.inj (exec_decUdp_decodes (fixedCheck_passed (Nat.not_lt.1 h))))

theorem payAll_tcp : payAll (decoderStep .tcp (selected .tcp s)) = closedTransport 6 s.off s := by
  rw [closedTransport_tcp]
  split_ifs with h20 h5 hlen
  · exact payAll_fault hoff hch hcount (Host.Outcome.next.inj (exec_decTcp_fault (tcpCheck_fewer_than_20 h20)))
  · exact payAll_fault hoff hch hcount
      (Host.Outcome.next.inj (exec_decTcp_fault (tcpCheck_doff_below_5 (Nat.not_lt.1 h20) h5)))
  · exact payAll_fault hoff hch hcount
      (Host.Outcome.next.inj (exec_decTcp_fault (tcpCheck_options_cut (Nat.not_lt.1 h20) (Nat.not_lt.1 h5) hlen)))
  · have hfit : (wordsToBytes (tcpHeaderAt s s.off).doff).toNat ≤ s.flen - s.off := by
      rw [wordsToBytes_toNat]
      exact Nat.not_lt.1 hlen
    exact payAll_decoded hoff hch hcount hfit (Host.Outcome.next.inj (exec_decTcp_decodes
      (tcpCheck_passed (Nat.not_lt.1 h20) (Nat.not_lt.1 h5) (Nat.not_lt.1 hlen))))

/-- DEMUX, the decoder it selects and the payload, from the IP header's end (R203 to R207). -/
theorem payAll_transportSteps (p : Byte) : payAll (transportSteps p s) = closedTransport p s.off s := by
  obtain rfl | rfl | rfl | hu := protocol_cases p
  · exact payAll_icmp hoff hch hcount
  · exact payAll_tcp hoff hch hcount
  · exact payAll_udp hoff hch hcount
  · rw [closedTransport_unknown hu, transportSteps, if_pos hu, demuxStep, if_pos hu]
    exact payAll_enterPayload (s := noteUnsupported { s with l4Tag := some .unknown }) hoff hch hcount

end

/-! ### The whole PARSE -/

/-- The IP record of R207 is what IPDEC writes of the header at 14 (R134, R135). -/
theorem closedIpRegs_eq (s : State) : closedIpRegs s = ipRegsOf (ipHeaderAt s 14) := by
  rw [ipHeaderAt_reads, ipRegsOf, wordsToBytes_eq, Nat.mul_comm]
  rfl

/-- An accepted IP header leaves the state from which R207 goes on, its cursor behind the header (R135). -/
theorem ipAccept_eq (s : State) : ipAccept 14 s =
    { s with
      ip := closedIpRegs s, ipValid := true, off := 14 + 4 * (rdBits s 14 3 0).toNat, phase := .demux } := by
  rw [ipAccept, closedIpRegs_eq, wordsToBytes_toNat, ipHeaderAt_ihl, Nat.mul_comm]

/-- PARSE from a cursor at 14 with nothing emitted, in closed form (R207). -/
theorem parseRun_closed (h14 : s.off = 14) (hch : s.chunks = []) (hcount : s.chCount = 0) :
    parseRun s = closedParse s := by
  rw [parseRun, h14, closedParse]
  split_ifs with h34 h5 hlen
  · rw [ipCheck_fewer_than_20 (show s.flen - 14 < 20 by omega)]
    rfl
  · rw [ipCheck_ihl_below_5 (show 20 ≤ s.flen - 14 by omega) h5]
    rfl
  · rw [ipCheck_options_cut (show 20 ≤ s.flen - 14 by omega) (Nat.not_lt.1 h5) (show s.flen - 14 < _ by omega)]
    rfl
  · rw [ipCheck_passed (show 20 ≤ s.flen - 14 by omega) (Nat.not_lt.1 h5) (show _ ≤ s.flen - 14 by omega)]
    simp only [ipAccept_eq]
    exact (payAll_transportSteps (s := { s with
      ip := closedIpRegs s, ipValid := true, off := 14 + 4 * (rdBits s 14 3 0).toNat, phase := .demux })
      (Nat.not_lt.1 hlen) hch hcount _).trans (closedTransport_congr _ _ _ _ { s with ip := closedIpRegs s, ipValid := true })

end Sys2Proof.Machine
end

section
/-! PROOFS. The closed form of a PARSE (spec/44_frame_sequencer.md R207). -/

namespace Sys2Proof.Machine

/-- Settles O41: an accepted START leaves the cursor at 14 and an empty stream. -/
theorem parseEndsInClosedForm : Obligations.ParseEndsInClosedForm := fun _ =>
  congrArg Host.Outcome.next (parseRun_closed rfl rfl rfl)

end Sys2Proof.Machine
end

section
/-! SUPPORT. A PARSE taken step by step (spec/44_frame_sequencer.md R201, spec/70_reset_and_hazards.md R277): with no move
queued each phase's step goes on to the end that the one function gives, and how many steps that is. -/

namespace Sys2Proof.Machine

variable {s s' t : State} {n m : Nat}

/-- With no move queued, at most n steps lead from s to t. -/
def StepsWithin (n : Nat) (s t : State) : Prop := ∃ k ≤ n, Host.Core.run Sys2Proof.core k s = .next t

theorem StepsWithin.refl (s : State) : StepsWithin 0 s s := ⟨0, le_rfl, rfl⟩

theorem StepsWithin.mono (h : StepsWithin n s t) (hnm : n ≤ m) : StepsWithin m s t := by
  obtain ⟨k, hk, hrun⟩ := h
  exact ⟨k, hk.trans hnm, hrun⟩

/-- With no move queued the parser moves (R201). -/
theorem step_parserMove (hq : s.pending = []) : step s = parserMove s := by
  rw [step, hq]

/-- The parser's move, then the steps from the state it leads to. -/
theorem StepsWithin.move (hq : s.pending = []) (hm : parserMove s = .next s') (h : StepsWithin n s' t) :
    StepsWithin (n + 1) s t := by
  obtain ⟨k, hk, hrun⟩ := h
  have hstep : Sys2Proof.core.step s = .next s' := (step_parserMove hq).trans hm
  refine ⟨k + 1, Nat.succ_le_succ hk, ?_⟩
  simp only [Host.Core.run, hstep]
  exact hrun

/-- The payload phase takes a step a chunk and one to finish (R205, R277). -/
theorem stepsWithin_payLoop (k : Nat) (hp : s.phase = .payload) (hq : s.pending = []) (hk : s.flen - s.off < k) :
    StepsWithin ((s.flen - s.off + 15) / 16 + 1) s (payLoop k s) := by
  induction k generalizing s with
  | zero => omega
  | succ k ih =>
    have hmove := parserMove_payload s hp
    rw [payLoop_of_payload k hp]
    obtain ⟨-, e⟩ | ⟨hmore, e, hpos, -, hend⟩ := payStep_cases s <;> rw [e] at hmove ⊢
    · rw [payLoop_of_done k rfl]
      exact (StepsWithin.move hq hmove (.refl _)).mono (by omega)
    · have hsize : chunkSize s = min 16 (s.flen - s.off) := rfl
      have hrest := ih (s := emitChunk s) hp hq (by rw [emitChunk_flen, emitChunk_off]; omega)
      rw [emitChunk_flen, emitChunk_off] at hrest
      exact (StepsWithin.move hq hmove hrest).mono (by omega)

theorem stepsWithin_payAll (hp : s.phase = .payload) (hq : s.pending = []) :
    StepsWithin ((s.flen - s.off + 15) / 16 + 1) s (payAll s) :=
  stepsWithin_payLoop _ hp hq (Nat.lt_succ_self _)

theorem payAll_phase (s : State) : (payAll s).phase = .done := payLoop_done _ s (Nat.lt_succ_self _)

/-- DEMUX, and the decoder in a step of its own where it selects one, lead to the payload phase (R203, R204). -/
theorem stepsWithin_transportSteps (p : Byte) (hp : s.phase = .demux) (hq : s.pending = [])
    (hproto : s.ip.proto = some p) (h : StepsWithin n (transportSteps p s) t) : StepsWithin (n + 2) s t := by
  have hdemux := parserMove_demux s p hp hproto
  unfold transportSteps at h
  obtain ⟨hu, -⟩ | ⟨hu, e⟩ := demuxStep_cases p s
  · rw [if_pos hu] at h
    exact (StepsWithin.move hq hdemux h).mono (Nat.le_succ _)
  · rw [if_neg hu] at h
    rw [e] at hdemux h
    exact .move hq hdemux (.move hq (parserMove_l4dec _ (tagOf p) rfl rfl) h)

theorem transportSteps_phase (p : Byte) (s : State) : (transportSteps p s).phase = .payload := by
  unfold transportSteps
  obtain ⟨hu, e⟩ | ⟨hu, -⟩ := demuxStep_cases p s
  · rw [if_pos hu, e]
    rfl
  · rw [if_neg hu]
    exact decoderStep_phase _ _

/-- Phase IPDEC with CMD = 0 and steps not fused runs IPDEC (R201, R202). -/
theorem parserMove_ipdec_parse (hp : s.phase = .ipdec) (hcmd : s.cmd = 0) (hfused : s.fused = false) :
    parserMove s = .next (ipdecStep s) := by
  simp only [parserMove, fetch, hp, hcmd, hfused]
  rfl

/-- Behind an accepted IP header and whatever follows it the cursor is at 34 or more (R133, R135). -/
theorem off_transportSteps_ipAccept (p : Byte) (h14 : s.off = 14) (hc : ipCheck s s.off = none) :
    34 ≤ (transportSteps p (ipAccept s.off s)).off := by
  have hheader : (ipAccept s.off s).off = 14 + (rdBits s s.off 3 0).toNat * 4 := by
    simp only [ipAccept, wordsToBytes_toNat, ipHeaderAt_ihl, h14]
  have hadvance := transportSteps_keeps keptBySteps_off p (ipAccept s.off s)
  obtain e | e | ⟨-, -, h5, -⟩ := ipCheck_cases s s.off
  · simp [hc] at e
  · simp [hc] at e
  · omega

/-- An accepted IP header, then its transport part and its payload: a step each for IPDEC, DEMUX, the decoder and the finish,
and one a chunk (R201, R277). -/
theorem stepsWithin_accepted {p : Byte} (hp : s.phase = .ipdec) (hcmd : s.cmd = 0) (hfused : s.fused = false)
    (hq : s.pending = []) (h14 : s.off = 14) (hc : ipCheck s s.off = none)
    (hproto : (ipAccept s.off s).ip.proto = some p) :
    StepsWithin (parseStepBound s.flen) s (payAll (transportSteps p (ipAccept s.off s))) := by
  have hipdec := parserMove_ipdec_parse hp hcmd hfused
  rw [ipdecStep, hc] at hipdec
  have hflen : s.flen = (transportSteps p (ipAccept s.off s)).flen :=
    transportSteps_keeps (keptBySteps_unwritten State.flen) p (ipAccept s.off s)
  have hqueue : [] = (transportSteps p (ipAccept s.off s)).pending :=
    hq.symm.trans (transportSteps_keeps (keptBySteps_unwritten State.pending) p (ipAccept s.off s))
  have hpayload := stepsWithin_payAll (transportSteps_phase p (ipAccept s.off s)) hqueue.symm
  have hall := StepsWithin.move hq hipdec (stepsWithin_transportSteps p rfl hq hproto hpayload)
  have hoff := off_transportSteps_ipAccept p h14 hc
  exact hall.mono (by unfold parseStepBound; omega)

end Sys2Proof.Machine
end

section
/-! PROOFS. PARSE as one function is its steps (spec/44_frame_sequencer.md R201, spec/70_reset_and_hazards.md R277). -/

namespace Sys2Proof.Machine

/-- Settles O42: an IP fault ends the command in its first step, an accepted header leads through the other phases. -/
theorem parseIsItsSteps : Obligations.ParseIsItsSteps := by
  intro s hp hcmd hfused hq h14
  suffices h : StepsWithin (parseStepBound s.flen) s (parseRun s) ∧ (parseRun s).phase = .done by
    obtain ⟨⟨k, hk, hrun⟩, hdone⟩ := h
    exact ⟨k, parseRun s, hk, hrun, hdone, rfl⟩
  unfold parseRun
  cases hc : ipCheck s s.off with
  | some c =>
    have hmove := parserMove_ipdec_parse hp hcmd hfused
    rw [ipdecStep, hc] at hmove
    exact ⟨(StepsWithin.move hq hmove (.refl _)).mono (by unfold parseStepBound; omega), rfl⟩
  | none => exact ⟨stepsWithin_accepted hp hcmd hfused hq h14 hc rfl, payAll_phase _⟩

end Sys2Proof.Machine
end

section
/-! SUPPORT. What R207's closed form accounts for (spec/44_frame_sequencer.md R208): each case of the transport part leaves a
payload that starts behind the headers and ends with the frame, and flags that exclude each other. -/

namespace Sys2Proof.Machine

variable {s : State} {q : Nat}

/-- A state x to which R207 adds the payload at q + ll: its transport header of ll bytes ends inside the frame, nothing of
the IP part of s differs, and the event, a fault and a valid header exclude each other (R208 (b), (e), (f)). -/
structure TransportRecord (s : State) (q : Nat) (ll : BitVec 6) (x : State) : Prop where
  flen : x.flen = s.flen
  frame : x.frame = s.frame
  ip : x.ip = s.ip
  l4Hlen : x.l4Hlen = some ll
  fits : q + ll.toNat ≤ s.flen
  unsupExcludes : x.unsup = true → x.fault = .clear ∧ x.l4Valid = false
  l4Excludes : x.l4Valid = true → x.fault = .clear ∧ x.l4Tag ≠ some .unknown

/-- The end state of a PARSE whose IP header ends at q is a payload's closed form on such a record. -/
def AccountedFrom (s : State) (q : Nat) (t : State) : Prop :=
  ∃ ll x, t = closedPayload (q + ll.toNat) x ∧ TransportRecord s q ll x

section

variable (hq : q ≤ s.flen) (hfault : s.fault = .clear) (hl4 : s.l4Valid = false) (hunsup : s.unsup = false)

include hq hl4 hunsup in
theorem accountedFrom_closedFault (c : FaultCode) (g : L4Tag) : AccountedFrom s q (closedFault c g q s) :=
  ⟨0, _, rfl, {
    flen := rfl, frame := rfl, ip := rfl, l4Hlen := rfl, fits := hq
    unsupExcludes := by simp [hunsup]
    l4Excludes := by simp [hl4] }⟩

include hfault hunsup in
theorem accountedFrom_closedDecoded {n : BitVec 6} {g : L4Tag} (hg : g ≠ .unknown) (hn : q + n.toNat ≤ s.flen)
    (rt : TcpRegs) (ru : UdpRegs) (ri : IcmpRegs) : AccountedFrom s q (closedDecoded n g rt ru ri q s) :=
  ⟨n, _, rfl, {
    flen := rfl, frame := rfl, ip := rfl, l4Hlen := rfl, fits := hn
    unsupExcludes := by simp [hunsup]
    l4Excludes := by simp [hfault, hg] }⟩

include hq hfault hl4 in
theorem accountedFrom_closedUnknown : AccountedFrom s q (closedUnknown q s) :=
  ⟨0, _, rfl, {
    flen := rfl, frame := rfl, ip := rfl, l4Hlen := rfl, fits := hq
    unsupExcludes := fun _ => ⟨hfault, hl4⟩
    l4Excludes := by simp [hl4] }⟩

include hq hfault hl4 hunsup in
/-- Every case of R207's transport part, with no fault and no result before it. -/
theorem accountedFrom_closedTransport (p : Byte) : AccountedFrom s q (closedTransport p q s) := by
  have fault := accountedFrom_closedFault hq hl4 hunsup
  obtain rfl | rfl | rfl | hu := protocol_cases p
  · rw [closedTransport_icmp]
    split_ifs with h
    · exact fault _ _
    · exact accountedFrom_closedDecoded hfault hunsup (by decide) (show q + 8 ≤ s.flen by omega) _ _ _
  · rw [closedTransport_tcp]
    split_ifs with h20 h5 hlen
    · exact fault _ _
    · exact fault _ _
    · exact fault _ _
    · refine accountedFrom_closedDecoded hfault hunsup (by decide) ?_ _ _ _
      rw [wordsToBytes_toNat, tcpHeaderAt_doff]
      omega
  · rw [closedTransport_udp]
    split_ifs with h
    · exact fault _ _
    · exact accountedFrom_closedDecoded hfault hunsup (by decide) (show q + 8 ≤ s.flen by omega) _ _ _
  · rw [closedTransport_unknown hu]
    exact accountedFrom_closedUnknown hq hfault hl4

end

/-- What R207's transport part starts from: the IP record of an accepted header (R135). -/
def ipRead (s : State) : State := { s with ip := closedIpRegs s, ipValid := true }

/-- R207 records an IP fault, or goes on to the transport part behind an IP header that fits the frame. -/
theorem closedParse_cases (s : State) :
    (closedParse s).fault = .truncIp ∨ (closedParse s).fault = .malformedIp ∨
      (14 + 4 * (rdBits s 14 3 0).toNat ≤ s.flen ∧
        closedParse s = closedTransport (rd8 s 23) (14 + 4 * (rdBits s 14 3 0).toNat) (ipRead s)) := by
  simp only [closedParse]
  split_ifs with h34 h5 hlen
  · exact .inl rfl
  · exact .inr (.inl rfl)
  · exact .inl rfl
  · exact .inr (.inr ⟨Nat.not_lt.1 hlen, rfl⟩)

/-- Without an IP fault, the closed form of R207 accounts for the frame from the IP header's end on. -/
theorem accountedFrom_closedParse (hfault : s.fault = .clear) (hl4 : s.l4Valid = false) (hunsup : s.unsup = false)
    (htrunc : (closedParse s).fault ≠ .truncIp) (hmalformed : (closedParse s).fault ≠ .malformedIp) :
    AccountedFrom (ipRead s) (14 + 4 * (rdBits s 14 3 0).toNat) (closedParse s) := by
  obtain e | e | ⟨hlen, e⟩ := closedParse_cases s
  · exact absurd e htrunc
  · exact absurd e hmalformed
  · rw [e]
    exact accountedFrom_closedTransport (s := ipRead s) hlen hfault hl4 hunsup _

end Sys2Proof.Machine
end

section
/-! PROOFS. A PARSE without IP fault accounts for every byte of the frame (spec/44_frame_sequencer.md R208). -/

namespace Sys2Proof.Machine

/-- Settles O43: the end state is the closed form of R207, whose chunk table holds the frame's bytes from the headers' end
on. -/
theorem parseAccountsForEveryByte : Obligations.ParseAccountsForEveryByte := by
  intro u t h htrunc hmalformed
  obtain rfl : closedParse (acceptStart u) = t := Host.Outcome.next.inj ((parseEndsInClosedForm u).symm.trans h)
  obtain ⟨ll, x, e, hx⟩ := accountedFrom_closedParse rfl rfl rfl htrunc hmalformed
  rw [e]
  have hhl : (BitVec.ofNat 6 (4 * (rdBits (acceptStart u) 14 3 0).toNat)).toNat =
      4 * (rdBits (acceptStart u) 14 3 0).toNat := by
    rw [Nat.mul_comm, ← wordsToBytes_eq, wordsToBytes_toNat]
  have hflen : x.flen = u.flen := hx.flen
  have hfits := hx.fits
  refine ⟨_, _, _, ll, rfl, rfl, congrArg IpRegs.hlen hx.ip, hx.l4Hlen, ?_, ?_, ?_, rfl, chunkTable_length _ _ _, hflen, rfl,
    hx.unsupExcludes, hx.l4Excludes⟩
  · rw [hhl, hflen]
    exact Nat.add_sub_of_le hfits
  · rw [hhl]
  · have hframe : x.frame = u.frame := hx.frame
    exact (chunkBytes_chunkTable x _ _).trans (by rw [sliceBytes, hframe]; rfl)

end Sys2Proof.Machine
end

section
/-! SUPPORT. One step by the move it takes off the queue, and the selector in force by PHASE (spec/44_frame_sequencer.md R201,
logs 3, 14, 15, 16): what runs is the row that a fetched selector decodes to. -/

namespace Sys2Proof.Machine

variable {s : State} {v : Selector} {i : Instr} {rest : List Move}

/-! ### One step by the queue's head -/

theorem step_queued_parser (hq : s.pending = .parser :: rest) : step s = parserMove { s with pending := rest } := by
  rw [step, hq]

theorem step_queued_call (hq : s.pending = .call i :: rest) : step s = callMove i { s with pending := rest } := by
  rw [step, hq]

theorem callMove_function (hi : i.isFunction = true) (s : State) : callMove i s = exec i s := if_pos hi

theorem callMove_refused (hi : i.isFunction = false) (s : State) : callMove i s = .refused .notAFunction := by
  rw [callMove, hi, if_neg Bool.false_ne_true]

/-- Where the stream has no further chunk, taking changes nothing (R272, log 5). -/
theorem takeChunk_none (h : s.chunks[s.takePos]? = none) : takeChunk s = s := by
  rw [takeChunk, h]

/-! ### The parser's move by the selector in force -/

/-- The parser runs the row it fetches (R201). -/
theorem parserMove_row (hf : fetch s = .row v) (hv : decodeSelector v = .ok i) : parserMove s = exec i s := by
  rw [parserMove, hf]
  exact runSelected_ok v i s hv

/-- The parser runs the row it fetches by a free value, which is used up (log 16). -/
theorem parserMove_drawn (hf : fetch s = .drawn v) (hv : decodeSelector v = .ok i) : parserMove s = exec i (draw s) := by
  rw [parserMove, hf]
  exact runSelected_ok v i (draw s) hv

/-- With no move queued one step runs the row fetched (R201). -/
theorem step_row (hq : s.pending = []) (hf : fetch s = .row v) (hv : decodeSelector v = .ok i) : step s = exec i s :=
  (step_parserMove hq).trans (parserMove_row hf hv)

/-- Which row is fetched does not depend on the moves still queued. -/
theorem fetch_pending (s : State) (rest : List Move) : fetch { s with pending := rest } = fetch s := rfl

/-! ### The selector in force by phase -/

/-- In phase IPDEC, CMD = 1 and fused steps select the command (R110, R220, log 4). -/
theorem fetch_ipdec_command (hp : s.phase = .ipdec) (h : s.cmd = 1 ∨ s.fused = true) : fetch s = .row (.cmd s.cmd) := by
  simp only [fetch, hp, if_pos h]

theorem fetch_ipdec_step (hp : s.phase = .ipdec) (hcmd : s.cmd = 0) (hfused : s.fused = false) :
    fetch s = .row (.phase 1) := by
  simp only [fetch, hp, hcmd, hfused]
  rfl

theorem fetch_demux (hp : s.phase = .demux) : fetch s = .row (.phase 2) := by simp only [fetch, hp]

theorem fetch_l4dec {g : L4Tag} (hp : s.phase = .l4dec) (hg : s.l4Tag = some g) : fetch s = .row (tagSelector g s.ip) := by
  simp only [fetch, hp, fetchDecoder, hg]

theorem fetch_payload (hp : s.phase = .payload) : fetch s = .row (.phase 4) := by simp only [fetch, hp]

/-- In phase L4DEC without a tag the decoder of a free tag runs, which is used up (log 16). -/
theorem parserMove_untagged (hp : s.phase = .l4dec) (hg : s.l4Tag = none) :
    parserMove s = .next (decoderStep (L4Tag.ofCode (Config.freeTag s.draws)) (draw s)) := by
  simp only [parserMove, fetch, hp, fetchDecoder, hg]
  exact runSelected_tagSelector _ s.ip (draw s)

/-- The decoder of a tag's code: the rows of 1, 2 and 3, and DEC_UNKNOWN for 0 (R112, R204, R177). -/
theorem decoderStep_ofCode (c : BitVec 2) (s : State) : .next (decoderStep (L4Tag.ofCode c) s) =
    if c = 1 then exec .decIcmp s else if c = 2 then exec .decTcp s else if c = 3 then exec .decUdp s
    else .next (unknownStep s) := by
  unfold L4Tag.ofCode
  split_ifs <;> rfl

/-! ### Placed operations (log 15) -/

/-- A number of no named row selects DEC_UNKNOWN in DEMUX as well (R111, R160). -/
theorem tagOf_unnamed {p : Byte} (h : p ∉ namedProtocols) : tagOf p = .unknown := by
  simp only [namedProtocols, List.mem_cons, List.not_mem_nil, or_false, not_or] at h
  obtain ⟨h1, -, h6, h17, -⟩ := h
  exact tagOf_unlisted h1 h6 h17

/-- The selector in force after `place` is the one that the row is encoded by (R110, R111, R201). -/
theorem fetch_place (hwf : i.wf = true) (hv : encode i = some v) (s : State) : fetch (place i s) = .row v := by
  cases i <;> cases hv
  case decUnknown p =>
    have hu : tagOf p = .unknown := tagOf_unnamed ((wf_decUnknown p).1 hwf)
    exact congrArg Fetched.row (if_pos hu)
  all_goals rfl

/-- An operation that is no function has a selector value (R110, R111, R201). -/
theorem encode_of_not_function (hi : i.isFunction = false) : ∃ v, encode i = some v := by
  cases i <;> cases hi <;> exact ⟨_, rfl⟩

theorem place_pending (hi : i.isFunction = false) (s : State) : (place i s).pending = [] := by
  cases i <;> cases hi <;> rfl

theorem place_function_pending (hi : i.isFunction = true) (s : State) : (place i s).pending = [.call i] := by
  cases i <;> cases hi <;> rfl

end Sys2Proof.Machine
end

section
/-! SUPPORT. What makes the block busy (spec/10_state.md R39, spec/44_frame_sequencer.md R212): no host move but a write of 1 to
START does, and neither does the parser. -/

namespace Sys2Proof.Machine

variable {s t : State} {m : HostMove}

/-- A host move after which a block that was not busy is busy is the one that starts a command (R39). -/
theorem hostMove_starts (h : hostMove m s = .next t) (hs : busy s = false) (ht : busy t = true) :
    m = .writeStart 1 := by
  have idle {u : State} (e : t = u) (hu : busy u = false) : m = .writeStart 1 :=
    absurd (ht.symm.trans (e ▸ hu)) (by decide)
  obtain ⟨v, -, e⟩ | ⟨v, -, e⟩ | ⟨v, -, -, e⟩ | ⟨v, hm, e⟩ | ⟨a, bs, -, -, e⟩ | ⟨n, -, e⟩ | ⟨-, e⟩ | ⟨-, e⟩ :=
    hostMove_cases m s t h
  · exact idle (e.trans (writeCmd_not_busy hs v)) hs
  · exact idle (e.trans (writeTarget_not_busy hs v)) hs
  · exact idle (e.trans (writeFlen_not_busy hs v)) hs
  · obtain e' | ⟨-, hv, -⟩ := writeStart_cases v s
    · exact idle (e.trans e') hs
    · rw [hm, hv]
  · exact idle e hs
  · exact idle e hs
  · obtain e' | ⟨c, -, e'⟩ := takeChunk_cases s
    · exact idle (e.trans e') hs
    · exact idle (e.trans e') hs
  · exact idle e rfl

end Sys2Proof.Machine
end

section
/-! PROOFS. The statements about the steps of the sequencer (spec/44_frame_sequencer.md R201 to R206, R212): which operation a
step runs, what makes the block busy, PAYCHUNK, and the moves that are the model's own choice. -/

namespace Sys2Proof.Machine

/-- Settles O54: neither the parser in IDLE and DONE nor a call starts a command, and of the host's moves only START does. -/
theorem onlyStartMakesBusy : Obligations.OnlyStartMakesBusy := by
  intro s t h hs ht
  obtain ⟨-, hm⟩ | ⟨rest, -, hm⟩ | ⟨m, rest, hq, hm⟩ | ⟨i, rest, -, hf, hm⟩ := step_cases s t h
  · rw [parserMove_not_busy s hs] at hm
    cases hm
    exact absurd (ht.symm.trans hs) (by decide)
  · rw [parserMove_not_busy { s with pending := rest } hs] at hm
    cases hm
    exact absurd (ht.symm.trans hs) (by decide)
  · exact ⟨rest, hostMove_starts hm hs ht ▸ hq⟩
  · obtain ⟨r, rfl⟩ := exec_function_cases i _ t hf hm
    exact absurd (ht.symm.trans hs) (by decide)

/-- Settles O1: the queue's head decides who moves, and the parser runs the row it fetches. -/
theorem stepRunsDecodedRow : Obligations.StepRunsDecodedRow := by
  refine ⟨fun s v i hq hf hv => step_row hq hf hv, fun s v i rest hq hf hv => ?_, fun s i rest hq hi => ?_,
    fun s v i hq hf hv => ?_, fun s v i rest hq hf hv => ?_⟩
  · exact (step_queued_parser hq).trans (parserMove_row ((fetch_pending s rest).trans hf) hv)
  · exact (step_queued_call hq).trans (callMove_function hi _)
  · exact (step_parserMove hq).trans (parserMove_drawn hf hv)
  · exact (step_queued_parser hq).trans (parserMove_drawn ((fetch_pending s rest).trans hf) hv)

/-- Settles O2, phase by phase: the selector in force and the row it decodes to. -/
theorem phaseSelectsOperation : Obligations.PhaseSelectsOperation := by
  refine fun s hq => ⟨fun hp => ?_, fun hp hcmd hfused => ?_, fun hp hcmd => ?_, fun hp => ?_, fun hp hg => ?_,
    fun hp hg => ?_, fun hp hg => ?_, fun hp => ?_⟩
  · rw [step_parserMove hq]
    exact parserMove_not_busy s (by obtain hp | hp := hp <;> simp [busy, hp])
  · exact step_row hq (fetch_ipdec_step hp hcmd hfused) rfl
  · exact step_row hq (fetch_ipdec_command hp (.inl hcmd)) (by rw [hcmd]; rfl)
  · exact step_row hq (fetch_demux hp) rfl
  · exact step_row hq (fetch_l4dec hp hg) rfl
  · exact step_row hq (fetch_l4dec hp hg) rfl
  · exact step_row hq (fetch_l4dec hp hg) rfl
  · exact step_row hq (fetch_payload hp) rfl

/-- Settles O3: a placed row is in force by its own selector value, a placed function is called. -/
theorem placedOperationRunsNext : Obligations.PlacedOperationRunsNext := by
  intro i s hwf
  cases hi : i.isFunction with
  | true => exact (step_queued_call (place_function_pending hi s)).trans (callMove_function hi _)
  | false =>
    obtain ⟨v, hv⟩ := encode_of_not_function hi
    exact step_row (place_pending hi s) (fetch_place hwf hv s) (decodeSelector_encode i v hwf hv)

/-- Settles O38: at the end of the frame the payload step finishes, before it the step emits the next chunk. -/
theorem paychunkEmitsOneChunk : Obligations.PaychunkEmitsOneChunk := by
  refine fun s => ⟨fun h => ?_, fun h => ?_⟩
  · rw [exec, execPaychunk, payStep, if_pos h.ge]
  · rw [exec, execPaychunk, payStep, if_neg h.not_ge]
    rfl

/-- Settles O39: the step finishes wherever the cursor is not before the end of the frame (log 12). -/
theorem paychunkPastTheEndFinishes : Obligations.PaychunkPastTheEndFinishes := by
  intro s h
  rw [exec, execPaychunk, payStep, if_pos h.le]

/-- Settles O60, move by move. -/
theorem remainingMoves : Obligations.RemainingMoves := by
  refine ⟨fun s hq hp hcmd hfused => ?_, fun s hq hp hg => ?_, fun s p hq hp hg hproto hu => ?_, fun s hq hp hg => ?_,
    fun s i rest hq hi => ?_, fun s rest hq hnone => ?_⟩
  · exact step_row hq (fetch_ipdec_command hp (.inr hfused)) (by rw [hcmd]; rfl)
  · rw [step_parserMove hq, parserMove_l4dec s .unknown hp hg]
    exact congrArg Host.Outcome.next (unknownStep_writes s)
  · rw [step_parserMove hq, parserMove_l4dec s .unknown hp hg, exec_decodeProto, hu]
  · rw [step_parserMove hq, parserMove_untagged hp hg, decoderStep_ofCode]
    rfl
  · exact (step_queued_call hq).trans (callMove_refused hi _)
  · have htake := takeChunk_none (s := { s with pending := rest }) hnone
    rw [step_host hq, hostMove, htake]

end Sys2Proof.Machine
end

section
/-! SUPPORT. The address filter (spec/45_address_filter.md R220 to R222): its comparison, and its answer for a header that passes
the checks. -/

namespace Sys2Proof.Machine

variable {s : State}

/-- The comparison of all 32 bits, and nothing more (R222). -/
theorem matchFlag_eq_true_iff (s : State) (p : Nat) :
    matchFlag s p = true ↔ s.target = rd32 s (p + 12) ∨ s.target = rd32 s (p + 16) := decide_eq_true_iff

/-- FILTER answers a header that passes the checks by the comparison and is done (R220). -/
theorem exec_filter_answers (hc : ipCheck s s.off = none) :
    exec .filter s = .next { s with matchBit := some (matchFlag s s.off), matchValid := true, phase := .done } := by
  rw [exec, execFilter, filterStep, hc]

end Sys2Proof.Machine
end

section
/-! PROOFS. The statements about the address filter (spec/45_address_filter.md R222, R223). -/

namespace Sys2Proof.Machine

/-- Settles O45: the checks pass, so the answer is the comparison with the two addresses. -/
theorem filterAnswersMatch : Obligations.FilterAnswersMatch := fun s h20 h5 hlen =>
  ⟨matchFlag s s.off, exec_filter_answers (ipCheck_passed h20 h5 hlen), matchFlag_eq_true_iff s s.off⟩

/-- Settles O46: a recorded fault writes FAULT, FAULT_OFF and PHASE, an answer MATCH, MATCH_VALID and PHASE. -/
theorem filterFrame : Obligations.FilterFrame := by
  intro s t h
  obtain rfl : filterStep s = t := Host.Outcome.next.inj h
  obtain ⟨c, -, e⟩ | ⟨-, e⟩ := filterStep_cases s <;> rw [e] <;> exact ⟨rfl, fun _ => rfl⟩

end Sys2Proof.Machine
end

section
/-! SUPPORT. That the parser's move is answered in every state (spec/44_frame_sequencer.md R201, spec/60_exceptions.md R235): every
operation that a selector stands for is, and whatever is fetched is such an operation. -/

namespace Sys2Proof.Machine

variable {i : Instr} {v : Selector}

/-- An operation that is no function answers a next state: its faults are recorded and stop nothing (R235). -/
theorem exec_answers (hi : i.isFunction = false) (s : State) : ∃ t, exec i s = .next t := by
  cases i <;> cases hi
  case demux => obtain ⟨p, -, e⟩ | ⟨-, e⟩ := execDemux_cases s <;> exact ⟨_, e⟩
  all_goals exact ⟨_, rfl⟩

/-- A row that rests on a free value names an operation as well (log 16). -/
theorem fetch_drawn_decodes {s : State} (hf : fetch s = .drawn v) : ∃ i, decodeSelector v = .ok i := by
  obtain ⟨-, -, rfl⟩ := fetch_drawn s v hf
  exact tagSelector_decodes _ _

/-- The parser's move answers a next state (R201). -/
theorem parserMove_answers (s : State) : ∃ t, parserMove s = .next t := by
  cases hf : fetch s with
  | nothing => exact ⟨s, by rw [parserMove, hf]⟩
  | row v =>
    obtain ⟨i, hv⟩ := fetch_row_decodes s v hf
    rw [parserMove_row hf hv]
    exact exec_answers (decodeSelector_not_function v i hv) s
  | drawn v =>
    obtain ⟨i, hv⟩ := fetch_drawn_decodes hf
    rw [parserMove_drawn hf hv]
    exact exec_answers (decodeSelector_not_function v i hv) (draw s)

end Sys2Proof.Machine
end

section
/-! SUPPORT. What is recorded of faults and of the event UNSUP outlasts every move but an accepted START and reset
(spec/60_exceptions.md R240, spec/70_reset_and_hazards.md R260). -/

namespace Sys2Proof.Machine

variable {s t : State} {m : HostMove}

/-- Nothing recorded in FAULT, FAULT_OFF and UNSUP has been cleared from s to t; another fault may have been recorded. -/
structure RecordKept (s t : State) : Prop where
  fault : s.fault ≠ .clear → t.fault ≠ .clear
  faultOff : s.faultOff ≠ none → t.faultOff ≠ none
  unsup : s.unsup = true → t.unsup = true

/-- A kept record excludes each of the three clearings. -/
theorem RecordKept.not_cleared (k : RecordKept s t) :
    ¬((s.fault ≠ .clear ∧ t.fault = .clear) ∨ (s.faultOff ≠ none ∧ t.faultOff = none) ∨
      (s.unsup = true ∧ t.unsup = false)) := by
  rintro (⟨hs, ht⟩ | ⟨hs, ht⟩ | ⟨hs, ht⟩)
  · exact k.fault hs ht
  · exact k.faultOff hs ht
  · exact Bool.false_ne_true (ht.symm.trans (k.unsup hs))

/-- A write that is ignored while busy keeps the record if it does where it is carried out (R270). -/
theorem RecordKept.unless_busy (k : RecordKept s t) : RecordKept s (if busy s then s else t) := by
  split
  · exact ⟨id, id, id⟩
  · exact k

/-- Every small step of the parser keeps the record: raising a fault records one with its offset, DEC_UNKNOWN sets UNSUP, and
the others write none of the three registers (R177, R236, R237). -/
theorem keptBySteps_record : KeptBySteps RecordKept where
  refl _ := ⟨id, id, id⟩
  trans _ _ _ h k := ⟨k.fault ∘ h.fault, k.faultOff ∘ h.faultOff, k.unsup ∘ h.unsup⟩
  raiseIp _ p _ hc := ⟨fun _ => hc, fun _ => Option.some_ne_none p, id⟩
  raiseL4 _ q _ hc := ⟨fun _ => hc, fun _ => Option.some_ne_none q, id⟩
  accept _ := ⟨id, id, id⟩
  enter _ := ⟨id, id, id⟩
  note _ := ⟨id, id, fun _ => rfl⟩
  tag _ _ := ⟨id, id, id⟩
  select _ _ := ⟨id, id, id⟩
  consume _ _ := ⟨id, id, id⟩
  icmp _ _ := ⟨id, id, id⟩
  udp _ _ := ⟨id, id, id⟩
  tcp _ _ := ⟨id, id, id⟩
  finish _ := ⟨id, id, id⟩
  emit _ := ⟨id, id, id⟩

/-- Every operation keeps the record. -/
theorem exec_recordKept {i : Instr} (h : exec i s = .next t) : RecordKept s t :=
  exec_keeps keptBySteps_record (fun _ _ => ⟨id, id, id⟩) (fun _ => ⟨id, id, id⟩) (fun _ _ => ⟨id, id, id⟩) i s t h

/-- The parser's move keeps the record; a free value drawn before it writes none of its registers (R201, log 16). -/
theorem parserMove_recordKept (h : parserMove s = .next t) : RecordKept s t := by
  obtain ⟨-, rfl⟩ | ⟨v, i, -, -, -, he⟩ | ⟨v, i, -, -, -, he⟩ := parserMove_cases s t h
  · exact ⟨id, id, id⟩
  · exact exec_recordKept he
  · obtain ⟨hfault, hoff, hunsup⟩ := exec_recordKept he
    exact ⟨hfault, hoff, hunsup⟩

/-- A host move keeps the record, unless it is an accepted START or reset (R212, R240, R260). -/
theorem hostMove_recordKept (h : hostMove m s = .next t) :
    RecordKept s t ∨ (m = .writeStart 1 ∧ busy s = false) ∨ m = .reset := by
  obtain ⟨v, -, rfl⟩ | ⟨v, -, rfl⟩ | ⟨v, -, -, rfl⟩ | ⟨v, rfl, rfl⟩ | ⟨a, bs, -, -, rfl⟩ | ⟨n, -, rfl⟩ | ⟨-, rfl⟩ |
    ⟨rfl, -⟩ := hostMove_cases m s t h
  · exact .inl (.unless_busy ⟨id, id, id⟩)
  · exact .inl (.unless_busy ⟨id, id, id⟩)
  · exact .inl (.unless_busy ⟨id, id, id⟩)
  · obtain e | ⟨hb, rfl, -⟩ := writeStart_cases v s
    · rw [e]
      exact .inl ⟨id, id, id⟩
    · exact .inr (.inl ⟨rfl, hb⟩)
  · exact .inl ⟨id, id, id⟩
  · exact .inl ⟨id, id, id⟩
  · left
    obtain e | ⟨c, -, e⟩ := takeChunk_cases s <;> rw [e] <;> exact ⟨id, id, id⟩
  · exact .inr (.inr rfl)

end Sys2Proof.Machine
end

section
/-! PROOFS. The statements about exceptions (spec/60_exceptions.md R235, R240). -/

namespace Sys2Proof.Machine

/-- Settles O50: either queue leads to the parser's move, which is always answered. -/
theorem parserNeverStops : Obligations.ParserNeverStops := by
  rintro s (hq | ⟨rest, hq⟩)
  · rw [step_parserMove hq]
    exact parserMove_answers s
  · rw [step_queued_parser hq]
    exact parserMove_answers { s with pending := rest }

/-- Settles O51: the parser, a call and every other host move keep the record. -/
theorem faultsClearedOnlyByStart : Obligations.FaultsClearedOnlyByStart := by
  intro s t h hcleared
  have cleared {rest : List Move} (k : RecordKept { s with pending := rest } t) : False := k.not_cleared hcleared
  obtain ⟨-, hm⟩ | ⟨rest, -, hm⟩ | ⟨m, rest, hq, hm⟩ | ⟨i, rest, -, -, hm⟩ := step_cases s t h
  · exact absurd hcleared (parserMove_recordKept hm).not_cleared
  · exact (cleared (parserMove_recordKept hm)).elim
  · obtain k | ⟨rfl, hb⟩ | rfl := hostMove_recordKept hm
    · exact (cleared k).elim
    · exact ⟨rest, .inl ⟨hq, hb⟩⟩
    · exact ⟨rest, .inr hq⟩
  · exact (cleared (exec_recordKept hm)).elim

end Sys2Proof.Machine
end

section
/-! SUPPORT. The host's frame store, one rule a case (spec/70_reset_and_hazards.md R261, R263, R271, 93 U11), and what the
frame reads as after it (spec/10_state.md R33). -/

namespace Sys2Proof.Machine

variable {s : State} {a c : Nat} {bs : List Byte}

theorem storeFrame_busy (hb : busy s = true) (a : Nat) (bs : List Byte) :
    storeFrame a bs s = .refused .frameWriteWhileBusy := by
  simp [storeFrame, hb]

theorem storeFrame_fits (hb : busy s = false) (hfits : a + bs.length < 2 ^ Config.lenW) :
    storeFrame a bs s = .next { s with frame := Memory.storeAll s.frame a bs } := by
  simp [storeFrame, hb, hfits]

theorem storeFrame_too_long (hb : busy s = false) (hlong : 2 ^ Config.lenW ≤ a + bs.length) :
    storeFrame a bs s = .refused .frameTooLong := by
  simp [storeFrame, hb, hlong.not_gt]

/-- Bytes stored from an address on read back. -/
theorem Memory.byte_storeAll_inside {v : Byte} {i : Nat} (m : Memory) (a : Nat) (hv : bs[i]? = some v) :
    Memory.byte (Memory.storeAll m a bs) (a + i) = v := by
  have hi : i < bs.length := (List.getElem?_eq_some_iff.1 hv).1
  rw [Memory.byte, Memory.find_storeAll_inside m a i bs hi, hv]

/-- Outside the stored span every address reads as before. -/
theorem Memory.byte_storeAll_other (m : Memory) (hc : c < a ∨ a + bs.length ≤ c) :
    Memory.byte (Memory.storeAll m a bs) c = Memory.byte m c := by
  rw [Memory.byte, Memory.find_storeAll_other m a c bs hc, Memory.byte]

/-- A store that is carried out changes the frame only: its bytes read back, and no address outside its span is touched. -/
theorem storeFrame_reads_back (hb : busy s = false) (hfits : a + bs.length < 2 ^ Config.lenW) :
    ∃ t, storeFrame a bs s = .next t ∧ t = { s with frame := t.frame } ∧
      (∀ i v, bs[i]? = some v → frameByte t (a + i) = v) ∧
      (∀ c, c < a ∨ a + bs.length ≤ c → frameByte t c = frameByte s c) :=
  ⟨_, storeFrame_fits hb hfits, rfl, fun _ _ => Memory.byte_storeAll_inside s.frame a,
    fun _ => Memory.byte_storeAll_other s.frame⟩

end Sys2Proof.Machine
end

section
/-! SUPPORT. The record of chunks taken through every move (spec/70_reset_and_hazards.md R260, R272, log 5): only the consumer's
take writes it, and it adds one chunk at the end. -/

namespace Sys2Proof.Machine

variable {s t : State}

/-- A record that is not written retracts nothing. -/
theorem taken_prefix_of_eq (e : s.taken = t.taken) : s.taken <+: t.taken := e ▸ List.prefix_rfl

/-- No operation writes the record. -/
theorem exec_taken {i : Instr} (h : exec i s = .next t) : s.taken = t.taken :=
  exec_keeps (keptBySteps_unwritten State.taken) (fun _ _ => rfl) (fun _ => rfl) (fun _ _ => rfl) i s t h

/-- The parser's move does not write the record, whether or not it draws a free value (R201, log 16). -/
theorem parserMove_taken (h : parserMove s = .next t) : s.taken = t.taken := by
  obtain ⟨-, rfl⟩ | ⟨v, i, -, -, -, he⟩ | ⟨v, i, -, -, -, he⟩ := parserMove_cases s t h
  · rfl
  · exact exec_taken he
  · exact exec_taken (s := draw s) he

@[simp] theorem writeCmd_taken (v : BitVec 1) (s : State) : (writeCmd v s).taken = s.taken := by
  unfold writeCmd; split <;> rfl

@[simp] theorem writeTarget_taken (v : Word) (s : State) : (writeTarget v s).taken = s.taken := by
  unfold writeTarget; split <;> rfl

@[simp] theorem writeFlen_taken (v : Nat) (s : State) : (writeFlen v s).taken = s.taken := by
  unfold writeFlen; split <;> rfl

@[simp] theorem writeStart_taken (v : BitVec 1) (s : State) : (writeStart v s).taken = s.taken := by
  obtain e | ⟨-, -, e⟩ := writeStart_cases v s <;> rw [e]
  exact acceptStart_taken s

/-- Taking extends the record at its end, or leaves it (R272). -/
theorem taken_prefix_takeChunk (s : State) : s.taken <+: (takeChunk s).taken := by
  obtain e | ⟨c, -, e⟩ := takeChunk_cases s <;> rw [e]
  exact List.prefix_append s.taken [c]

/-- No host move, reset among them, retracts a chunk taken (R212, R260). -/
theorem hostMove_taken_prefix {m : HostMove} (h : hostMove m s = .next t) : s.taken <+: t.taken := by
  obtain ⟨v, -, rfl⟩ | ⟨v, -, rfl⟩ | ⟨v, -, -, rfl⟩ | ⟨v, -, rfl⟩ | ⟨a, bs, -, -, rfl⟩ | ⟨n, -, rfl⟩ | ⟨-, rfl⟩ |
    ⟨-, rfl⟩ := hostMove_cases m s t h
  · exact taken_prefix_of_eq (writeCmd_taken v s).symm
  · exact taken_prefix_of_eq (writeTarget_taken v s).symm
  · exact taken_prefix_of_eq (writeFlen_taken v s).symm
  · exact taken_prefix_of_eq (writeStart_taken v s).symm
  · exact taken_prefix_of_eq rfl
  · exact taken_prefix_of_eq rfl
  · exact taken_prefix_takeChunk s
  · exact taken_prefix_of_eq (resetBlock_taken s).symm

end Sys2Proof.Machine
end

section
/-! PROOFS. The statements about reset and hazards (spec/70_reset_and_hazards.md R260, R261, R263, R270 to R272). -/

namespace Sys2Proof.Machine

/-- Settles O16: a frame is one store from address 0, a byte a store of length 1, and both are refused past LEN_W's range. -/
theorem loadedFrameReadsBack : Obligations.LoadedFrameReadsBack := by
  refine ⟨fun s bytes rest hq hb hfits => ?_, fun s a b rest hq hb hfits => ?_, fun s bytes rest hq hb hlong => ?_,
    fun s a b rest hq hb hlong => ?_⟩ <;> rw [step_host hq, hostMove]
  · rw [← Nat.zero_add bytes.length] at hfits
    obtain ⟨t, hstep, hframe, hin, hout⟩ := storeFrame_reads_back (s := { s with pending := rest }) hb hfits
    simp only [Nat.zero_add] at hin hout
    exact ⟨t, hstep, hframe, hin, fun a ha => hout a (.inr ha)⟩
  · obtain ⟨t, hstep, hframe, hin, hout⟩ :=
      storeFrame_reads_back (s := { s with pending := rest }) (bs := [b]) hb hfits
    exact ⟨t, hstep, hframe, hin 0 b rfl, fun c hc => hout c (Nat.lt_or_gt_of_ne hc)⟩
  · exact storeFrame_too_long (s := { s with pending := rest }) hb (by rwa [Nat.zero_add])
  · exact storeFrame_too_long (s := { s with pending := rest }) (bs := [b]) hb hlong

/-- Settles O57: the parser and a call leave the record, and of the host's moves only taking a chunk writes it. -/
theorem takenChunksStayTaken : Obligations.TakenChunksStayTaken := by
  intro s t h
  obtain ⟨-, hm⟩ | ⟨rest, -, hm⟩ | ⟨m, rest, -, hm⟩ | ⟨i, rest, -, -, hm⟩ := step_cases s t h
  · exact taken_prefix_of_eq (parserMove_taken hm)
  · exact taken_prefix_of_eq (parserMove_taken (s := { s with pending := rest }) hm)
  · exact hostMove_taken_prefix (s := { s with pending := rest }) hm
  · exact taken_prefix_of_eq (exec_taken (s := { s with pending := rest }) hm)

/-- Settles O10: a queued reset is taken off and carried out in every phase. -/
theorem resetAtAnyTime : Obligations.ResetAtAnyTime := by
  intro s rest hq
  rw [step_host hq, hostMove, resetBlock]

/-- Settles O12: each of the four writes is taken off the queue and then does nothing. -/
theorem writesWhileBusyIgnored : Obligations.WritesWhileBusyIgnored := by
  intro s rest hb
  have hb' : busy { s with pending := rest } = true := hb
  refine ⟨fun v hq => ?_, fun v hq => ?_, fun v hq hv => ?_, fun v hq => ?_⟩ <;> rw [step_host hq, hostMove]
  · rw [writeCmd_busy hb']
  · rw [writeTarget_busy hb']
  · rw [if_pos hv, writeFlen_busy hb']
  · rw [writeStart_busy hb']

/-- Settles O17: a byte stored and a frame loaded are both frame stores, which a busy block refuses. -/
theorem frameWriteWhileBusyRefused : Obligations.FrameWriteWhileBusyRefused := by
  intro s rest hb
  have hb' : busy { s with pending := rest } = true := hb
  refine ⟨fun a b hq => ?_, fun bytes hq => ?_⟩ <;> rw [step_host hq, hostMove]
  · exact storeFrame_busy hb' a [b]
  · exact storeFrame_busy hb' 0 bytes

end Sys2Proof.Machine
end
